-- ==== Sys2Proof/Word.lean ====
section
/-! DEFINITION. The number types of the part and the fixed-size table every repeated record is held in.

Nothing here follows a rule of behaviour: bytes, host addresses, zone masks (spec 0.10) and a plain list of a
fixed length with its reads and writes. -/

namespace Sys2Proof

/-- One byte of host memory. -/
abbrev Byte := BitVec 8

/-- A 64-bit host address (R208). -/
abbrev Addr := BitVec 64

/-- A set of zones: zone `z` is a member when bit `z` is 1 (spec 0.10). -/
abbrev ZoneMask := BitVec 64

/-- A fixed number of like things, numbered from 0. -/
structure Table (n : Nat) (α : Type) where
  toList : List α
  size_eq : toList.length = n
deriving DecidableEq, Repr

variable {n : Nat} {α β : Type}

/-- Entry `i`. -/
def Table.get (t : Table n α) (i : Fin n) : α :=
  t.toList[i.val]'(by rw [t.size_eq]; exact i.isLt)

/-- The table whose entry `i` is `f i`. -/
def Table.build (f : Fin n → α) : Table n α := ⟨List.ofFn f, List.length_ofFn⟩

/-- The table all of whose entries are `a`. -/
def Table.fill (n : Nat) (a : α) : Table n α := ⟨List.replicate n a, List.length_replicate⟩

/-- The table with entry `i` replaced by `a`. -/
def Table.set (t : Table n α) (i : Fin n) (a : α) : Table n α :=
  ⟨t.toList.set i.val a, by rw [List.length_set, t.size_eq]⟩

/-- The table with entry `i` replaced by its image under `f`. -/
def Table.modify (t : Table n α) (i : Fin n) (f : α → α) : Table n α := t.set i (f (t.get i))

/-- Every entry replaced, from its number and its value. -/
def Table.update (t : Table n α) (f : Fin n → α → β) : Table n β := Table.build fun i => f i (t.get i)

/-- The mask of the zones that satisfy `p`. -/
def maskOf (p : Fin 64 → Bool) : ZoneMask := (BitVec.ofBoolListLE (List.ofFn p)).setWidth 64

/-- Whether zone `z` is a member of the mask. -/
def inMask (m : ZoneMask) (z : Fin 64) : Bool := m.getLsbD z.val

/-- All 64 zones. -/
def allZones : ZoneMask := BitVec.allOnes 64

/-- The members of `a` that are not members of `b`. -/
def maskLess (a b : ZoneMask) : ZoneMask := a &&& ~~~b

/-- How many zones a mask holds. -/
def maskSize (m : ZoneMask) : Nat := ((List.finRange 64).filter (inMask m)).length

end Sys2Proof
end

