-- ==== Sys2Proof/Config.lean ====
section
/-! DEFINITION. The named limits and defaults of the part, each with the rule that states it, and the values the spec
leaves open. -/

namespace Sys2Proof.Config

/-- The largest gain code, unity (spec 0.8). -/
def maxGain : Nat := 32768
/-- The largest and smallest sample (spec 0.7, R26). -/
def sampleMax : Int := 8388607
def sampleMin : Int := -8388608
/-- The end of every 16-bit saturating count (R3, R54, R126, R153, R171, R185, R214). -/
def maxCount : Nat := 65535
/-- The end of the error score of a port (R185). -/
def maxScore : Nat := 255
/-- The score that takes pass away, and the score that gives it back (R186). -/
def failScore : Nat := 64
def passScore : Nat := 16
/-- How much a faulted frame adds to the score (R185). -/
def faultScore : Nat := 16
/-- How many entries the announcement wait list holds (R50, R51). -/
def waitListCap : Nat := 16
/-- How many callers a station's waiting list holds (R73, R80). -/
def waitingCap : Nat := 4
/-- The largest clip length and expiry (R48), and the longest alarm test (R131). -/
def maxClip : Nat := 600000
def maxTest : Nat := 600000
/-- The longest fade (R46). -/
def maxFade : Nat := 60000
/-- The longest audio block (R155). -/
def maxBlock : Nat := 1000
/-- Limits of a cue list (R168, R170). -/
def maxCues : Nat := 256
def maxActions : Nat := 512
/-- The end of the show clock and of a trigger argument (R171, R172). -/
def maxClock : Nat := 4294967295
/-- How many samples a period has (spec 0.5). -/
def periodLen : Nat := 48
/-- The signature and layout version of the area header (R206). -/
def signature : BitVec 32 := 0x31454157
def layoutVersion : BitVec 8 := 1
/-- The constant of the IDENT register (R204). -/
def ident : BitVec 32 := 0x57AE0064

/-- FREE VALUE. What the next-cue-number field of a page holds when no next cue is present: R181 and R211 give
the field its place and not its value then. The argument is the page's change count. See assumption 3. -/
opaque absentCueNumber : Nat → BitVec 16

end Sys2Proof.Config
end

