-- ==== Sys2Proof/Syntax.lean ====
section
/-! DEFINITION. The commands of the part: one constructor of `Instr` for each row of spec/opcode_table.json, and the
types of their operands.

A command is one step of the part, "whole and indivisible" (spec 95). Four kinds of operand occur:
- what comes from outside the part: a register value, the data of a completed read, a received frame;
- the parameters of a request, as wide as its fields in the slot (R209), with the slot that holds it;
- the content of a station event (R76);
- the name of the thing the step is about: a unit, a port, a player, a channel, a station.
Internal steps (a claim, a posting, a release notice) take the oldest such message in flight: the command names
the sender, the message stands in `Machine.State.net`. -/

namespace Sys2Proof

/-! ## Numbers of things (spec 0.10) -/

abbrev Zone := Fin 64
abbrev SetIx := Fin 32
abbrev Station := Fin 64
abbrev Stream := Fin 16
abbrev Player := Fin 4
abbrev Channel := Fin 8
abbrev Group := Fin 8
abbrev SlotIx := Fin 64
abbrev PatIx := Fin 4

/-! ## Names of parts of the machine -/

/-- The seven blocks of spec 0.2. -/
inductive Block where
  | xu | lp | zm | au | is | mau | su
deriving DecidableEq, Repr

/-- The eight link ports (R182). -/
inductive Port where
  | s0 | s1 | pa | pb | m0 | m1 | m2 | m3
deriving DecidableEq, Repr

/-- The two station links. -/
inductive StationPort where
  | s0 | s1
deriving DecidableEq, Repr

/-- The two panel links, the routes of the bridge alarm panel. -/
inductive PanelPort where
  | pa | pb
deriving DecidableEq, Repr

/-- The four amplifier links. -/
inductive AmpPort where
  | m0 | m1 | m2 | m3
deriving DecidableEq, Repr

/-- The six registers of R204. -/
inductive Register where
  | ident | control | areaLo | areaHi | notice | noticeEnable
deriving DecidableEq, Repr

/-- The audio sources of R29, each with a held period at ZM. -/
inductive Source where
  | stream (c : Stream)
  | player (p : Player)
  | pageChime (c : Channel)
  | alarmTone
  | mic (st : Station)
deriving DecidableEq, Repr

/-- The thirteen tone generators of R145. -/
inductive Generator where
  | alarm
  | player (p : Player)
  | page (c : Channel)
deriving DecidableEq, Repr

/-! ## Data from outside -/

/-- The end of a bus read of `n` bytes: the data, or a bus error (R218). -/
inductive BusRead (n : Nat) where
  | data (bytes : Table n Byte)
  | busError
deriving DecidableEq, Repr

/-- The control word of one station slot (R195). -/
structure ControlWord where
  event : BitVec 4
  arg : BitVec 8
  counter : BitVec 4
deriving DecidableEq, Repr

/-- A received station frame after its sync word: every field of R195, in order. -/
structure StationFrame where
  sequence : BitVec 4
  slotCount : BitVec 6
  reserved : BitVec 6
  words : Table 32 ControlWord
  crc : BitVec 16
  audio : Table 32 (Table 48 (BitVec 24))
deriving DecidableEq, Repr

/-- A received panel frame after its sync word (R195). -/
structure PanelFrame where
  sequence : BitVec 4
  command : BitVec 4
  identity : BitVec 8
  crc : BitVec 8
deriving DecidableEq, Repr

/-- A received amplifier back-channel frame after its sync word (R195). -/
structure BackFrame where
  sequence : BitVec 4
  reserved : BitVec 4
  lines : Table 16 (BitVec 2)
  crc : BitVec 16
deriving DecidableEq, Repr

/-! ## Request parameters (R209), each field as wide as it stands in the slot -/

structure SetModeParams where
  mode : BitVec 8
deriving DecidableEq, Repr

structure ZoneSetParams where
  zone : BitVec 8
  flags : BitVec 8
  master : BitVec 16
  announce : BitVec 16
  alarm : BitVec 16
  duck : BitVec 16
  alarmDuck : BitVec 16
  nightCap : BitVec 16
  slew : BitVec 16
  threshold : BitVec 8
deriving DecidableEq, Repr

structure ZoneFillParams where
  set : BitVec 8
  selector : BitVec 8
  value : BitVec 16
deriving DecidableEq, Repr

structure ZonesetDefineParams where
  set : BitVec 8
  members : ZoneMask
  chime : BitVec 8
deriving DecidableEq, Repr

structure RouteSetParams where
  stream : BitVec 8
  set : BitVec 8
  gain : BitVec 16
deriving DecidableEq, Repr

structure AnnounceParams where
  mask : ZoneMask
  clipAddr : Addr
  clipLen : BitVec 32
  chime : BitVec 8
  policy : BitVec 8
  expiry : BitVec 32
  urgent : BitVec 8
deriving DecidableEq, Repr

structure AnnounceCancelParams where
  slot : BitVec 8
deriving DecidableEq, Repr

structure StationSetParams where
  station : BitVec 8
  authority : BitVec 8
  groups : BitVec 16
  listen : BitVec 16
deriving DecidableEq, Repr

structure IntercomConfigParams where
  ring : BitVec 32
  wait : BitVec 32
  page : BitVec 32
deriving DecidableEq, Repr

structure CallConnectParams where
  a : BitVec 8
  b : BitVec 8
deriving DecidableEq, Repr

structure CallReleaseParams where
  station : BitVec 8
deriving DecidableEq, Repr

structure AlarmConfigParams where
  k : BitVec 16
  r : BitVec 16
deriving DecidableEq, Repr

structure AlarmTestParams where
  pattern : BitVec 8
  set : BitVec 8
  duration : BitVec 32
deriving DecidableEq, Repr

structure PatternLoadParams where
  slot : BitVec 8
  list : Addr
deriving DecidableEq, Repr

structure StreamSetParams where
  stream : BitVec 8
  cls : BitVec 8
  base : Addr
  count : BitVec 8
deriving DecidableEq, Repr

structure StreamStartParams where
  stream : BitVec 8
  index : BitVec 8
  target : BitVec 16
  fade : BitVec 32
deriving DecidableEq, Repr

structure StreamStopParams where
  stream : BitVec 8
  fade : BitVec 32
deriving DecidableEq, Repr

structure StreamLevelParams where
  stream : BitVec 8
  target : BitVec 16
  fade : BitVec 32
deriving DecidableEq, Repr

structure ShowLoadParams where
  list : Addr
deriving DecidableEq, Repr

structure ShowStopParams where
  fade : BitVec 32
deriving DecidableEq, Repr

/-- A request as XU dispatches it: its kind and its parameters (R209). -/
inductive Request where
  | setMode (p : SetModeParams)
  | zoneSet (p : ZoneSetParams)
  | zoneFill (p : ZoneFillParams)
  | zonesetDefine (p : ZonesetDefineParams)
  | routeSet (p : RouteSetParams)
  | announce (p : AnnounceParams)
  | announceCancel (p : AnnounceCancelParams)
  | stationSet (p : StationSetParams)
  | intercomConfig (p : IntercomConfigParams)
  | callConnect (p : CallConnectParams)
  | callRelease (p : CallReleaseParams)
  | alarmConfig (p : AlarmConfigParams)
  | alarmTest (p : AlarmTestParams)
  | patternLoad (p : PatternLoadParams)
  | streamSet (p : StreamSetParams)
  | streamStart (p : StreamStartParams)
  | streamStop (p : StreamStopParams)
  | streamLevel (p : StreamLevelParams)
  | showLoad (p : ShowLoadParams)
  | showGo
  | showHold
  | showResume
  | showStop (p : ShowStopParams)
deriving DecidableEq, Repr

/-! ## The commands -/

/-- The steps of the part: one constructor for each row of spec/opcode_table.json, in the table's order. -/
inductive Instr where
  -- resets, registers, attach, scan and the bus-master port
  | powerOnReset
  | hardwareReset
  | softwareReset
  | attach
  | detach
  | scan
  | noticeRead
  | noticeEnableWrite (v : BitVec 32)
  | registerWrite (r : Register) (v : BitVec 32)
  | headerReadComplete (r : BusRead 256)
  | scanIntervalExpiry
  | meterIntervalExpiry
  | slotReadComplete (bytes : Table 64 Byte)
  | stateWriteComplete
  | rewriteEnd
  | meterRewriteEnd
  | areaBusError
  | busGrant
  -- requests, taken by their units from the slot XU dispatches them from
  | setMode (slot : SlotIx) (p : SetModeParams)
  | zoneSet (slot : SlotIx) (p : ZoneSetParams)
  | zoneFill (slot : SlotIx) (p : ZoneFillParams)
  | zonesetDefine (slot : SlotIx) (p : ZonesetDefineParams)
  | routeSet (slot : SlotIx) (p : RouteSetParams)
  | announce (slot : SlotIx) (p : AnnounceParams)
  | announceCancel (slot : SlotIx) (p : AnnounceCancelParams)
  | stationSet (slot : SlotIx) (p : StationSetParams)
  | intercomConfig (slot : SlotIx) (p : IntercomConfigParams)
  | callConnect (slot : SlotIx) (p : CallConnectParams)
  | callRelease (slot : SlotIx) (p : CallReleaseParams)
  | alarmConfig (slot : SlotIx) (p : AlarmConfigParams)
  | alarmTest (slot : SlotIx) (p : AlarmTestParams)
  | patternLoad (slot : SlotIx) (p : PatternLoadParams)
  | streamSet (slot : SlotIx) (p : StreamSetParams)
  | streamStart (slot : SlotIx) (p : StreamStartParams)
  | streamStop (slot : SlotIx) (p : StreamStopParams)
  | streamLevel (slot : SlotIx) (p : StreamLevelParams)
  | showLoad (slot : SlotIx) (p : ShowLoadParams)
  | showGo (slot : SlotIx)
  | showHold (slot : SlotIx)
  | showResume (slot : SlotIx)
  | showStop (slot : SlotIx) (p : ShowStopParams)
  -- teardown and job reset parts
  | auTeardown
  | isTeardown
  | suTeardown
  | jobReset (u : Block)
  -- events at ZM
  | mixPeriodStart
  | claimRequest (u : Block)
  | releaseRequest (u : Block)
  | heldPeriodDelivery (src : Source)
  | streamPosting
  | conversationPosting
  | pageChannelPosting
  | silencedPosting
  | modePosting
  | lineStatusReport (p : AmpPort)
  | ampPassLoss (p : AmpPort)
  -- events at AU
  | releaseNotice
  | eligibilityExamination
  | auPeriodStart
  | entryExpiry
  | clipEnd (p : Player)
  | playerChimeEnd (p : Player)
  | clipFetchComplete (r : BusRead 192)
  | preemption
  -- events at IS
  | call (st : Station) (target : BitVec 8)
  | answer (st : Station)
  | clear (st : Station)
  | groupJoin (st : Station) (group : BitVec 8)
  | page (st : Station) (set : BitVec 7) (emergency : Bool)
  | talkDown (st : Station)
  | talkUp (st : Station)
  | undefinedStationEvent (st : Station) (code : BitVec 4)
  | isPeriodStart (first : List Station)
  | ringTimeout (st : Station)
  | waitTimeout (st : Station)
  | pageLimitExpiry (c : Channel)
  | pageChimeEnd (c : Channel)
  | portCondition (p : StationPort)
  -- events at MAU
  | panelFrameArrival (p : PanelPort)
  | panelPassChange (p : PanelPort)
  | alert
  | general
  | abandon
  | silence
  | resound
  | standDown
  | mauPeriodStart
  | alarmTestEnd
  | patternListComplete (r : BusRead 272)
  | stepEnd (g : Generator)
  -- events at SU
  | suPeriodStart
  | fadeEnd (c : Stream)
  | blockEnd (c : Stream)
  | probeComplete (r : BusRead 16)
  | blockFetchComplete (r : BusRead 192)
  | descriptorWriteComplete (busError : Bool)
  | cueFire
  | cueListReadComplete (r : BusRead 16)
  | alarmHold
  -- events at the link ports
  | signalPresent (p : Port)
  | signalLost (p : Port)
  | frameMissing (p : Port)
  | stationFrame (p : StationPort) (f : StationFrame)
  | panelFrame (p : PanelPort) (f : PanelFrame)
  | backChannelFrame (p : AmpPort) (f : BackFrame)
  | stationTransmit (p : StationPort)
  | panelTransmit (p : PanelPort)
  | amplifierTransmit (p : AmpPort)
  -- the answer to a claim, and the reference word of a station
  | claimAnswer (u : Block)
  | referenceWord (st : Station)
deriving DecidableEq, Repr

end Sys2Proof
end

