-- ==== Sys2Proof/Decode.lean ====
section
/-! DEFINITION. Reading the layouts the host writes (R208, R209, R210), and the opcode table's words.

No row of spec/opcode_table.json gives bits, so no word spells a command (`decodeTableWord`). What the part itself
decodes are the bytes it reads over the bus: a request slot, the area header, a stream descriptor, a pattern list
and the parts of a cue list. A multi-byte field is little-endian (R208). -/

namespace Sys2Proof

/-- The command that a word of `nbits` bits spells by the table's bits: none, for the table gives no row any. -/
def decodeTableWord (_nbits _w : Nat) : Option Instr := none

/-- The number a little-endian byte list stands for (R208). -/
def leNat : List Byte → Nat
  | [] => 0
  | b :: bs => b.toNat + 256 * leNat bs

/-- The `k` little-endian bytes of a number (R208). -/
def leBytes : Nat → Nat → List Byte
  | 0, _ => []
  | k + 1, v => BitVec.ofNat 8 v :: leBytes k (v / 256)

/-- The field of `size` bytes at byte `off` of a record. -/
def fieldAt {n : Nat} (t : Table n Byte) (off size : Nat) : Nat := leNat ((t.toList.drop off).take size)

/-- The same field as a bit vector. -/
def fieldBits {n : Nat} (t : Table n Byte) (off size : Nat) : BitVec (8 * size) :=
  BitVec.ofNat (8 * size) (fieldAt t off size)

/-- The kind codes of R209. -/
def Request.kind : Request → Byte
  | .setMode _ => 0x01
  | .zoneSet _ => 0x10
  | .zoneFill _ => 0x11
  | .zonesetDefine _ => 0x12
  | .routeSet _ => 0x13
  | .announce _ => 0x20
  | .announceCancel _ => 0x21
  | .stationSet _ => 0x30
  | .intercomConfig _ => 0x31
  | .callConnect _ => 0x32
  | .callRelease _ => 0x33
  | .alarmConfig _ => 0x40
  | .alarmTest _ => 0x41
  | .patternLoad _ => 0x42
  | .streamSet _ => 0x50
  | .streamStart _ => 0x51
  | .streamStop _ => 0x52
  | .streamLevel _ => 0x53
  | .showLoad _ => 0x60
  | .showGo => 0x61
  | .showHold => 0x62
  | .showResume => 0x63
  | .showStop _ => 0x64

/-- The state byte of a slot that holds a posted request, and the bytes the part writes over it (R208). -/
def slotPosted : Byte := 0xFE
def slotTaken : Byte := 0xFC
def slotDone : Byte := 0xF8
def slotRefused : Byte := 0xF4

/-- The request a slot's bytes hold, by the layouts of R209; none for an unknown kind. -/
def decodeRequest (b : Table 64 Byte) : Option Request :=
  let kind := fieldAt b 1 1
  if kind = 0x01 then some (.setMode ⟨fieldBits b 8 1⟩)
  else if kind = 0x10 then
    some (.zoneSet ⟨fieldBits b 8 1, fieldBits b 9 1, fieldBits b 10 2, fieldBits b 12 2, fieldBits b 14 2,
      fieldBits b 16 2, fieldBits b 18 2, fieldBits b 20 2, fieldBits b 22 2, fieldBits b 24 1⟩)
  else if kind = 0x11 then some (.zoneFill ⟨fieldBits b 8 1, fieldBits b 9 1, fieldBits b 10 2⟩)
  else if kind = 0x12 then some (.zonesetDefine ⟨fieldBits b 8 1, fieldBits b 16 8, fieldBits b 9 1⟩)
  else if kind = 0x13 then some (.routeSet ⟨fieldBits b 8 1, fieldBits b 9 1, fieldBits b 10 2⟩)
  else if kind = 0x20 then
    some (.announce ⟨fieldBits b 8 8, fieldBits b 16 8, fieldBits b 24 4, fieldBits b 28 1, fieldBits b 29 1,
      fieldBits b 32 4, fieldBits b 30 1⟩)
  else if kind = 0x21 then some (.announceCancel ⟨fieldBits b 8 1⟩)
  else if kind = 0x30 then
    some (.stationSet ⟨fieldBits b 8 1, fieldBits b 9 1, fieldBits b 10 2, fieldBits b 12 2⟩)
  else if kind = 0x31 then some (.intercomConfig ⟨fieldBits b 8 4, fieldBits b 12 4, fieldBits b 16 4⟩)
  else if kind = 0x32 then some (.callConnect ⟨fieldBits b 8 1, fieldBits b 9 1⟩)
  else if kind = 0x33 then some (.callRelease ⟨fieldBits b 8 1⟩)
  else if kind = 0x40 then some (.alarmConfig ⟨fieldBits b 8 2, fieldBits b 10 2⟩)
  else if kind = 0x41 then some (.alarmTest ⟨fieldBits b 8 1, fieldBits b 9 1, fieldBits b 12 4⟩)
  else if kind = 0x42 then some (.patternLoad ⟨fieldBits b 8 1, fieldBits b 16 8⟩)
  else if kind = 0x50 then
    some (.streamSet ⟨fieldBits b 8 1, fieldBits b 9 1, fieldBits b 16 8, fieldBits b 24 1⟩)
  else if kind = 0x51 then
    some (.streamStart ⟨fieldBits b 8 1, fieldBits b 9 1, fieldBits b 10 2, fieldBits b 12 4⟩)
  else if kind = 0x52 then some (.streamStop ⟨fieldBits b 8 1, fieldBits b 12 4⟩)
  else if kind = 0x53 then some (.streamLevel ⟨fieldBits b 8 1, fieldBits b 10 2, fieldBits b 12 4⟩)
  else if kind = 0x60 then some (.showLoad ⟨fieldBits b 16 8⟩)
  else if kind = 0x61 then some .showGo
  else if kind = 0x62 then some .showHold
  else if kind = 0x63 then some .showResume
  else if kind = 0x64 then some (.showStop ⟨fieldBits b 12 4⟩)
  else none

/-- Whether the slot is POSTED (R208, R213). -/
def slotIsPosted (b : Table 64 Byte) : Bool := fieldBits b 0 1 = slotPosted

/-- The area header (R206, R208): signature, layout version, scan interval, meter interval. -/
structure AreaHeader where
  signature : BitVec 32
  version : BitVec 8
  scan : Nat
  meter : Nat
deriving DecidableEq, Repr

def decodeHeader (b : Table 256 Byte) : AreaHeader :=
  ⟨fieldBits b 0 4, fieldBits b 4 1, fieldAt b 8 1, fieldAt b 10 2⟩

/-- A stream descriptor as read (R155, R210). -/
structure Descriptor where
  state : Byte
  last : Bool
  length : Nat
  block : Addr
deriving DecidableEq, Repr

def decodeDescriptor (b : Table 16 Byte) : Descriptor :=
  ⟨fieldBits b 0 1, (fieldBits b 1 1).getLsbD 0, fieldAt b 2 2, fieldBits b 8 8⟩

/-- The state bytes of a descriptor (R155). -/
def descriptorFull : Byte := 0xFE
def descriptorPlaying : Byte := 0xFC
def descriptorConsumed : Byte := 0xF8

/-- One step entry of a pattern list, as read (R210). -/
structure RawStep where
  kind : Nat
  wave : Nat
  level : Nat
  freq : Nat
  duration : Nat
deriving DecidableEq, Repr

/-- A pattern list as read: step count, repeat count, the sixteen entries (R210). -/
structure RawPattern where
  count : Nat
  repeats : Nat
  steps : List RawStep
deriving DecidableEq, Repr

def decodePatternList (b : Table 272 Byte) : RawPattern where
  count := fieldAt b 0 1
  repeats := fieldAt b 1 1
  steps := (List.range 16).map fun i =>
    let o := 16 + 16 * i
    ⟨fieldAt b o 1, fieldAt b (o + 1) 1, fieldAt b (o + 2) 2, fieldAt b (o + 4) 4, fieldAt b (o + 8) 2⟩

/-- The cue count of a cue list's header (R210). -/
def decodeCueCount (b : Table 16 Byte) : Nat := fieldAt b 0 2

/-- The head of a cue record, as read (R210). -/
structure RawCueHead where
  number : Nat
  trigger : Nat
  actions : Nat
  argument : Nat
deriving DecidableEq, Repr

def decodeCueHead (b : Table 16 Byte) : RawCueHead :=
  ⟨fieldAt b 0 2, fieldAt b 2 1, fieldAt b 3 1, fieldAt b 4 4⟩

/-- A cue action, as read (R210): its kind is the low four bits of byte 0. -/
inductive RawAction where
  | streamStart (stream index target fade : Nat)
  | streamStop (stream fade : Nat)
  | streamLevel (stream target fade : Nat)
  | route (stream set gain : Nat)
  | clip (addr : Addr) (len set : Nat) (chime policy : Bool) (expiry : Nat)
  | unknown
deriving DecidableEq, Repr

def decodeAction (b : Table 16 Byte) : RawAction :=
  let kind := fieldAt b 0 1 % 16
  if kind = 1 then .streamStart (fieldAt b 1 1) (fieldAt b 2 1) (fieldAt b 4 2) (fieldAt b 8 4)
  else if kind = 2 then .streamStop (fieldAt b 1 1) (fieldAt b 8 4)
  else if kind = 3 then .streamLevel (fieldAt b 1 1) (fieldAt b 4 2) (fieldAt b 8 4)
  else if kind = 4 then .route (fieldAt b 1 1) (fieldAt b 2 1) (fieldAt b 4 2)
  else if kind = 5 then
    .clip (fieldBits b 8 8) (fieldAt b 2 3) (fieldAt b 1 1)
      ((fieldBits b 0 1).getLsbD 6) ((fieldBits b 0 1).getLsbD 7) (fieldAt b 5 3)
  else .unknown

/-- The 48 sample words of one fetched period, each read as a signed 32-bit integer (R26). -/
def decodeWords (b : Table 192 Byte) : Table 48 Int :=
  Table.build fun i => (fieldBits b (4 * i.val) 4).toInt

/-- The panel command a code stands for: absent for NOP; none for an undefined code (R114). The codes are those of
spec 6.1: 1 ALERT, 2 GENERAL, 3 ABANDON, 4 SILENCE, 5 RESOUND, 6 STAND_DOWN, 15 NOP. -/
def panelCodeDefined (c : BitVec 4) : Bool := (1 ≤ c.toNat && c.toNat ≤ 6) || c = 15

end Sys2Proof
end

