-- ==== Sys2Proof/Machine/State.lean ====
section
/-! DEFINITION. The state of the part: one record per block of spec 0.2, the messages in flight between blocks, and the
queue of commands waiting. Every field names the rule that gives it.

Where a value is a function of other state the spec also gives (the online flag of a station, its indicator code,
the interrupt line, the job that holds a slot) it is stored once and the other view is a function
(`Machine/Flags.lean`, `Machine/Ops.lean`). -/

namespace Sys2Proof.Machine

/-- 48 samples (spec 0.5, 0.7). -/
abbrev Period := Table 48 Int

/-- 48 zero samples. -/
def silence48 : Period := Table.fill 48 0

/-! ## Zones (Chapter 1) -/

/-- The operating mode (R196). -/
inductive Mode where
  | standby | normal | night | service
deriving DecidableEq, Repr

/-- The alarm stage, in rising order (R122). -/
inductive Stage where
  | idle | alert | general | abandon
deriving DecidableEq, Repr

/-- What an amplifier rack reports of a line (R3, R5). -/
inductive LineStatus where
  | ok | opened | short | ampFault | unknown
deriving DecidableEq, Repr

/-- The two claimants of ALARM (R7). -/
inductive AlarmHolder where
  | stage | test
deriving DecidableEq, Repr

/-- The four flags of a zone (R2, R4). -/
structure ZoneFlags where
  cabin : Bool
  crew : Bool
  theatre : Bool
  nightPermit : Bool
deriving DecidableEq, Repr

/-- The settings of a zone record (R2). -/
structure ZoneSettings where
  flags : ZoneFlags
  master : Nat
  announce : Nat
  alarm : Nat
  duck : Nat
  alarmDuck : Nat
  nightCap : Nat
  slew : Nat
  threshold : Nat
deriving DecidableEq, Repr

/-- The holder fields of a zone, one per event class (R7). -/
structure Holders where
  ev : Option Channel
  alarm : Option AlarmHolder
  live : Option Channel
  prog : Option Player
deriving DecidableEq, Repr

/-- One gain code per class (R3). -/
structure Gains where
  ev : Nat
  alarm : Nat
  live : Nat
  prog : Nat
  show_ : Nat
  bg : Nat
deriving DecidableEq, Repr

/-- One zone record: settings (R2) and live state (R3). -/
structure ZoneRec where
  settings : ZoneSettings
  holders : Holders
  target : Gains
  current : Gains
  line : LineStatus
  override : Bool
  clips : Nat
  peak : Nat
deriving DecidableEq, Repr

/-- One entry of the zone-set table (R20). -/
structure ZoneSet where
  members : ZoneMask
  chime : Bool
deriving DecidableEq, Repr

/-- The class of a stream channel (R33, R153). -/
inductive BedClass where
  | background | show
deriving DecidableEq, Repr

/-- ZM's copy of a stream channel (R33). -/
structure StreamCopy where
  cls : BedClass
  running : Bool
deriving DecidableEq, Repr

/-- A held period: 48 samples and a fresh mark (R29). -/
structure Held where
  samples : Period
  fresh : Bool
deriving DecidableEq, Repr

/-- The held periods of R29, one per audio source. -/
structure HeldTable where
  streams : Table 16 Held
  players : Table 4 Held
  chimes : Table 8 Held
  tone : Held
  mics : Table 64 Held
deriving DecidableEq, Repr

/-- A station's standing in ZM's copy of the conversation structure (R42). -/
inductive ConvStanding where
  | none
  | pair (partner : Station)
  | group (g : Group)
deriving DecidableEq, Repr

/-- One station of that copy (R42). -/
structure ConvCopy where
  standing : ConvStanding
  keyDown : Bool
  listen : Nat
deriving DecidableEq, Repr

/-- The phase of a page channel (R99). -/
inductive PagePhase where
  | chime | opened
deriving DecidableEq, Repr

/-- ZM's copy of a page channel that carries a page (R37). -/
structure PageCopy where
  station : Station
  phase : PagePhase
deriving DecidableEq, Repr

/-- The Zone Mixer. -/
structure Zm where
  zones : Table 64 ZoneRec
  sets : Table 32 ZoneSet
  cross : Table 16 (Table 64 Nat)
  streams : Table 16 StreamCopy
  silenced : Bool
  held : HeldTable
  conv : Table 64 ConvCopy
  pages : Table 8 (Option PageCopy)
deriving DecidableEq, Repr

/-! ## Patterns and tone generators (Chapter 7) -/

inductive StepKind where
  | on | gap
deriving DecidableEq, Repr

inductive Waveform where
  | square | triangle
deriving DecidableEq, Repr

/-- One step of a pattern (R140). -/
structure Step where
  kind : StepKind
  wave : Waveform
  freq : Nat
  level : Nat
  duration : Nat
deriving DecidableEq, Repr

/-- One pattern: its repeat count and its steps, the step count being their number (R140). -/
structure Pattern where
  repeats : Nat
  steps : List Step
deriving DecidableEq, Repr

/-- The pattern store (R140). -/
abbrev PatternStore := Table 4 Pattern

/-- How long a generator plays (R145). -/
inductive Regime where
  | endless
  | bounded (passesLeft : Nat)
deriving DecidableEq, Repr

/-- The record of a running tone generator (R145); a stopped one holds none. -/
structure Gen where
  slot : PatIx
  regime : Regime
  step : Nat
  left : Nat
  kind : StepKind
  wave : Waveform
  amp : Nat
  freq : Nat
  phase : BitVec 32
deriving DecidableEq, Repr

/-! ## Announcements (Chapter 3) -/

/-- Where an announcement came from (R51). -/
inductive Origin where
  | slot (i : SlotIx)
  | cue (number : Nat)
deriving DecidableEq, Repr

inductive Policy where
  | waitAll | partly
deriving DecidableEq, Repr

/-- An entry of the wait list (R51). -/
structure Entry where
  origin : Origin
  target : ZoneMask
  filtered : ZoneMask
  clipAddr : Addr
  clipLen : Nat
  chime : Bool
  policy : Policy
  expiry : Option Nat
deriving DecidableEq, Repr

inductive PlayerPhase where
  | free | chime | clip
deriving DecidableEq, Repr

/-- The mark of a period ahead of a cursor (R54, R153). -/
inductive FetchMark where
  | notRequested
  | requested
  | complete (samples : Period)
deriving DecidableEq, Repr

/-- One announcement player (R54). `lead` says that the lead period start of R59 is still to come; `mark0` and
`mark1` are the marks of the clip period at the cursor and of the one after it. -/
structure PlayerRec where
  phase : PlayerPhase
  origin : Option Origin
  target : ZoneMask
  filtered : ZoneMask
  admitted : ZoneMask
  interrupted : ZoneMask
  clipAddr : Addr
  clipLen : Nat
  cursor : Nat
  lead : Bool
  mark0 : FetchMark
  mark1 : FetchMark
  played : Nat
  late : Nat
  startNumber : Nat
  gen : Option Gen
deriving DecidableEq, Repr

/-- An examination that awaits ZM's answer: the entry visited, by its place in the list, and the player named
(R53). -/
structure Exam where
  index : Nat
  player : Player
deriving DecidableEq, Repr

/-- The Announcement Unit. -/
structure Au where
  waitList : List Entry
  examPending : Bool
  exam : Option Exam
  players : Table 4 PlayerRec
deriving DecidableEq, Repr

/-! ## The intercom (Chapters 4 and 5) -/

inductive Authority where
  | crew | officer | bridge
deriving DecidableEq, Repr

/-- The notice an IDLE station may show (R74). -/
inductive IdleNotice where
  | quiet | busyDenied | noAnswer
deriving DecidableEq, Repr

/-- The state of a station with what the spec keeps in that state alone (R71, R73): the partner, the active group,
the page channel and the timer; and the notice of an IDLE station (R74). -/
inductive Standing where
  | offline
  | idle (notice : IdleNotice)
  | calling (partner : Station)
  | ringing (partner : Station) (left : Nat)
  | talking (partner : Station)
  | waiting (owner : Station) (left : Nat)
  | group (g : Group)
  | paging (c : Channel)
deriving DecidableEq, Repr

/-- The ten indicator codes (R74, R195). -/
inductive Indicator where
  | quiet | ring | ringback | queued | busyDenied | talk | group | pageChime | pageOpen | noAnswer
deriving DecidableEq, Repr

/-- One station record (R71). -/
structure StationRec where
  authority : Authority
  groups : BitVec 8
  listen : Nat
  standing : Standing
  keyDown : Bool
  waiting : List Station
  counter : Option (BitVec 4)
deriving DecidableEq, Repr

/-- The two classes of a page (R99). -/
inductive PageClass where
  | live | ev
deriving DecidableEq, Repr

/-- A page channel in use (R99). -/
structure PageRec where
  station : Station
  cls : PageClass
  set : SetIx
  admitted : ZoneMask
  phase : PagePhase
  left : Nat
  gen : Option Gen
deriving DecidableEq, Repr

/-- A page admission that awaits ZM's answer (R101). -/
structure PageWait where
  station : Station
  cls : PageClass
  set : SetIx
  channel : Channel
  chime : Bool
deriving DecidableEq, Repr

/-- What IS holds of a station port: the pass state and slot count LP last posted (R77). -/
structure PortCopy where
  pass : Bool
  count : Nat
deriving DecidableEq, Repr

/-- The Intercom Switch. -/
structure Ic where
  stations : Table 64 StationRec
  ringTimeout : Nat
  waitTimeout : Nat
  pageLimit : Nat
  channels : Table 8 (Option PageRec)
  ports : Table 2 PortCopy
  awaiting : Option PageWait
deriving DecidableEq, Repr

/-! ## The muster alarm (Chapter 6) -/

/-- The panel commands other than NOP (R114). -/
inductive PanelCommand where
  | alert | general | abandon | silence | resound | standDown
deriving DecidableEq, Repr

/-- The confirmation run (R119). -/
structure Run where
  candidate : Option (PanelCommand × BitVec 8)
  count : Nat
  spent : Bool
deriving DecidableEq, Repr

/-- A running alarm test (R132). -/
structure AlarmTest where
  origin : Option SlotIx
  pattern : PatIx
  mask : ZoneMask
  left : Nat
  run : Nat
deriving DecidableEq, Repr

/-- A pattern load in flight (R142). `id` tells the reads of several loads apart. -/
structure PatternLoad where
  id : Nat
  origin : Option SlotIx
  slot : PatIx
  list : Addr
deriving DecidableEq, Repr

/-- What MAU does when ZM answers the claim it awaits: release the test's other zones (R127), take the answer as
the test mask (R131), or nothing more. -/
inductive MauAwait where
  | stageOnly
  | stageRelease (test : ZoneMask)
  | testStart
deriving DecidableEq, Repr

/-- The Muster Alarm Unit. `stage` is the stage MAU holds and `published` the one other units read: they differ
from a stage entry until ZM takes its ALARM claim (R122). -/
structure Mau where
  stage : Stage
  published : Stage
  silenced : Bool
  active : PanelPort
  revert : Nat
  passA : Bool
  passB : Bool
  run : Run
  ignored : Nat
  test : Option AlarmTest
  gen : Option Gen
  k : Nat
  r : Nat
  store : PatternStore
  loads : List PatternLoad
  nextLoad : Nat
  awaiting : Option MauAwait
deriving DecidableEq, Repr

/-! ## Show playback (Chapter 8) -/

/-- The two states a PAUSED channel returns to (R153). -/
inductive PriorState where
  | running | starved
deriving DecidableEq, Repr

/-- The stream states (R154), PAUSED with its prior state. -/
inductive StreamState where
  | stopped | running | starved | paused (prior : PriorState) | fault
deriving DecidableEq, Repr

/-- A channel's ring (R153, R155). -/
structure Ring where
  base : Addr
  count : Nat
deriving DecidableEq, Repr

/-- The playing block (R153). -/
structure Playing where
  index : Nat
  addr : Addr
  len : Nat
  last : Bool
  period : Nat
  lead : Bool
deriving DecidableEq, Repr

/-- The next block (R153). -/
structure NextBlock where
  index : Nat
  addr : Addr
  len : Nat
  last : Bool
deriving DecidableEq, Repr

/-- The fetch mark of one block period, requested or complete with 48 samples (R153, R159). -/
structure BlockMark where
  index : Nat
  period : Nat
  samples : Option Period
deriving DecidableEq, Repr

/-- A fader: no fade moves when the step is 0 (R46, R153). -/
structure Fader where
  current : Nat
  target : Nat
  step : Nat
deriving DecidableEq, Repr

/-- One stream channel (R153). -/
structure Chan where
  cls : BedClass
  ring : Option Ring
  state : StreamState
  cursor : Nat
  playing : Option Playing
  next : Option NextBlock
  marks : List BlockMark
  probe : Option Nat
  stopPending : Bool
  startNumber : Nat
  fader : Fader
  starves : Nat
  lates : Nat
deriving DecidableEq, Repr

/-- A cue's trigger (R168). -/
inductive Trigger where
  | go
  | at (time : Nat)
  | follow (delay : Nat)
deriving DecidableEq, Repr

/-- A cue's action (R168). -/
inductive Action where
  | streamStart (stream : Stream) (index target fade : Nat)
  | streamStop (stream : Stream) (fade : Nat)
  | streamLevel (stream : Stream) (target fade : Nat)
  | route (stream : Stream) (set : SetIx) (gain : Nat)
  | clip (addr : Addr) (len : Nat) (set : SetIx) (chime : Bool) (policy : Policy) (expiry : Nat)
deriving DecidableEq, Repr

/-- One cue (R168). -/
structure Cue where
  number : Nat
  trigger : Trigger
  actions : List Action
deriving DecidableEq, Repr

inductive HoldReason where
  | host | alarm
deriving DecidableEq, Repr

/-- The show states (R171), HELD with its reason. -/
inductive ShowState where
  | empty | loaded | running | held (reason : HoldReason) | ended
deriving DecidableEq, Repr

/-- The show (R171). `pointer` is the place of the next cue in the table; `firing` says that a period start's
firing of cues is under way (R172). -/
structure Show where
  state : ShowState
  cues : List Cue
  pointer : Option Nat
  clock : Nat
  lastFire : Nat
  dropped : Nat
  firing : Bool
deriving DecidableEq, Repr

/-- A cue record being read: its head, and how many of its actions are still to come (R169). -/
structure CuePart where
  number : Nat
  trigger : Trigger
  actions : List Action
  missing : Nat
deriving DecidableEq, Repr

/-- The load record of SHOW_LOAD and how far the reading has come (R169): the cue count once the header is read,
the cues read whole, the one being read, and where the next read lies. -/
structure ShowLoad where
  origin : SlotIx
  list : Addr
  total : Option Nat
  cues : List Cue
  part : Option CuePart
  actions : Nat
  offset : Nat
deriving DecidableEq, Repr

/-- The Show Unit. -/
structure Su where
  channels : Table 16 Chan
  theShow : Show
  load : Option ShowLoad
deriving DecidableEq, Repr

/-! ## Link ports (Chapter 9) -/

inductive Lock where
  | down | acquire | locked
deriving DecidableEq, Repr

/-- The receive side of a port (R183 to R186), with the signal the line receiver last reported. -/
structure Rx where
  signal : Bool
  lock : Lock
  acquired : Nat
  missed : Nat
  expected : Option (BitVec 4)
  score : Nat
  pass : Bool
  crcErrors : Nat
  seqErrors : Nat
  lockLosses : Nat
deriving DecidableEq, Repr

/-- The announced slot count and the mismatch flag of a station port (R187). -/
structure SlotCount where
  count : Nat
  mismatch : Bool
deriving DecidableEq, Repr

/-- What a zone's channel of an amplifier frame will carry (R191, R41). -/
structure ZoneTx where
  buffer : Held
  override : Bool
  mute : Bool
deriving DecidableEq, Repr

/-- The Link Ports. `sent` holds the frame each port sent last, bit by bit as it left the pin (R195), and nothing
before the first. -/
structure Lp where
  rx : Table 8 Rx
  slots : Table 2 SlotCount
  outSeq : Table 8 (BitVec 4)
  stationTx : Table 64 Held
  zoneTx : Table 64 ZoneTx
  sent : Table 8 (List Bool)
deriving DecidableEq, Repr

/-! ## The Exchange Unit (Chapters 10 and 11) -/

inductive Attach where
  | detached | attaching | attached
deriving DecidableEq, Repr

/-- The outcomes of a DONE completion (R214). -/
inductive JobOutcome where
  | ok | played | partly | cancelled | preempted | expired | filtered | aborted
deriving DecidableEq, Repr

/-- The refusal codes (R214). -/
inductive RefusalCode where
  | format | mode | align | state | full | noTarget | badList | bus
deriving DecidableEq, Repr

/-- The results of a completion, by the kind of request (R209). -/
inductive Results where
  | none
  | modes (before after : Mode)
  | zones (n : Nat)
  | announcement (admitted heard : ZoneMask) (played late : Nat)
  | test (mask : ZoneMask) (run : Nat)
  | pattern (count pass : Nat)
  | cues (count actions : Nat)
deriving DecidableEq, Repr

/-- What a unit hands XU at the end of a request (R214). -/
inductive Completion where
  | done (outcome : JobOutcome) (results : Results)
  | refused (code : RefusalCode) (detail : Nat)
deriving DecidableEq, Repr

/-- One entry of the slot shadow table (R214). The job that holds a TAKEN slot names the slot in its own record, and
`State.jobOf` (Machine/Ops.lean) finds it there. -/
inductive Shadow where
  | free
  | taken (kind : Byte)
  | finished (c : Completion)
deriving DecidableEq, Repr

/-- The status pages that have a rewrite state (R215). -/
inductive StatusPage where
  | general | link | zone | station | stream | show
deriving DecidableEq, Repr

inductive Rewrite where
  | clean | dirty | writing | writingOwed
deriving DecidableEq, Repr

/-- The rewrite state and change count of a status page (R215, R216). -/
structure PageState where
  rewrite : Rewrite
  count : BitVec 32
deriving DecidableEq, Repr

/-- The Exchange Unit but for its bus-master port. `readData` is what the host's last read of NOTICE returned. -/
structure Xu where
  attach : Attach
  areaLo : BitVec 32
  areaHi : BitVec 32
  notice : BitVec 32
  noticeEnable : BitVec 32
  readData : BitVec 32
  mode : Mode
  shadows : Table 64 Shadow
  refusals : Nat
  scanInterval : Nat
  meterInterval : Nat
  scanCount : Nat
  meterCount : Nat
  pass : Option SlotIx
  passPending : Bool
  dispatch : Option (SlotIx × Request)
  pages : Table 6 PageState
  meterPage : BitVec 32
  meterWriting : Bool
deriving DecidableEq, Repr

/-- A job that holds a TAKEN slot (R134, R213, R214): a request being dispatched, an entry of the wait list by its place,
a player, the alarm test, a pattern load by its number, or the cue-table load. -/
inductive SlotJob where
  | dispatch (r : Request)
  | waiting (place : Nat)
  | playing (p : Player)
  | alarmTest
  | patternLoad (id : Nat)
  | showLoad
deriving DecidableEq, Repr

/-- What a bus transfer is for, with the tags its completion carries (R57, R155, R156, R159, R214, R216). -/
inductive Job where
  | probe (c : Stream) (index start : Nat)
  | block (c : Stream) (index period start : Nat)
  | clip (p : Player) (period start : Nat)
  | descriptor (c : Stream) (start : Nat)
  | taken (slot : SlotIx)
  | results (slot : SlotIx)
  | code (slot : SlotIx)
  | state (slot : SlotIx)
  | pageOpen (p : StatusPage)
  | pageBody (p : StatusPage)
  | pageClose (p : StatusPage)
  | meterOpen
  | meterBody
  | meterClose
  | slotRead (slot : SlotIx)
  | header
  | patternList (id : Nat)
  | cueList
deriving DecidableEq, Repr

/-- A transfer of the bus-master port (R218): a read of `size` bytes, or a write of `bytes`. A transfer that is
not `live` has its completion discarded (R207, R218). -/
structure Transfer where
  job : Job
  addr : Addr
  size : Nat
  bytes : List Byte
  live : Bool
deriving DecidableEq, Repr

/-- The bus-master port (R218): the transfers waiting, oldest first, and the one in progress. -/
structure Bus where
  waiting : List Transfer
  current : Option Transfer
deriving DecidableEq, Repr

/-! ## Messages in flight between blocks -/

/-- The class and the claimant of a claim or release (R7, R8). -/
inductive Claim where
  | programmed (p : Player)
  | live (c : Channel)
  | ev (c : Channel)
  | alarm (h : AlarmHolder)
deriving DecidableEq, Repr

/-- The candidate zones of a claim: a mask, or every CREW zone as ZM holds the flags (R127). -/
inductive Candidates where
  | zones (m : ZoneMask)
  | crew
deriving DecidableEq, Repr

inductive Manner where
  | any | allOrNone
deriving DecidableEq, Repr

/-- What a unit sends ZM. A stage claim carries the stage it publishes (R122). `talking` carries both standings of two
stations that enter TALKING together, posted at one event (R92). -/
inductive ZmMsg where
  | claim (c : Claim) (candidates : Candidates) (manner : Manner) (stage : Option Stage)
  | release (c : Claim) (m : ZoneMask)
  | silenced (b : Bool)
  | mode
  | jobReset
  | streamClass (c : Stream) (cls : BedClass)
  | streamRunning (c : Stream) (running : Bool)
  | standing (st : Station) (v : ConvStanding)
  | talking (a b : Station)
  | talkKey (st : Station) (down : Bool)
  | listen (st : Station) (gain : Nat)
  | pageChannel (c : Channel) (v : Option PageCopy)
deriving DecidableEq, Repr

/-- What an amplifier port hands ZM (R192). -/
inductive AmpMsg where
  | report (lines : Table 16 LineStatus)
  | passLoss
deriving DecidableEq, Repr

/-- What a station port hands IS (R187). -/
inductive IsMsg where
  | condition (pass : Bool) (count : Nat)
  | word (st : Station) (w : ControlWord)
deriving DecidableEq, Repr

/-- The content of a valid panel arrival: its command, absent for NOP, and its identity (R115). -/
structure PanelContent where
  command : Option PanelCommand
  identity : BitVec 8
deriving DecidableEq, Repr

/-- What a panel port hands MAU (R115). An invalid arrival has no content. -/
inductive MauMsg where
  | pass (passing : Bool)
  | arrival (content : Option PanelContent) (mark : Bool)
deriving DecidableEq, Repr

/-- A part XU hands a unit at a mode change (R199, R201). -/
inductive XuPart where
  | teardown | jobReset
deriving DecidableEq, Repr

/-- The messages sent and not yet taken, oldest first in each channel. `heldNotices` counts the release notices posted
behind a teardown that AU has not taken (R110, R199). -/
structure Net where
  auToZm : List ZmMsg
  isToZm : List ZmMsg
  mauToZm : List ZmMsg
  suToZm : List ZmMsg
  xuToZm : List ZmMsg
  ampToZm : Table 4 (List AmpMsg)
  deliveries : List (Source × Period)
  zmToAu : Option ZoneMask
  zmToIs : Option ZoneMask
  zmToMau : Option ZoneMask
  releaseNotices : Nat
  heldNotices : Nat
  preemptions : Nat
  alarmHolds : Nat
  xuToAu : List XuPart
  xuToIs : List XuPart
  xuToSu : List XuPart
  stationToIs : Table 2 (List IsMsg)
  panelToMau : Table 2 (List MauMsg)
deriving DecidableEq, Repr

/-! ## The whole state -/

/-- The state of the part. -/
structure State where
  pending : List Instr
  xu : Xu
  bus : Bus
  zm : Zm
  au : Au
  ic : Ic
  mau : Mau
  su : Su
  lp : Lp
  net : Net
deriving DecidableEq, Repr

/-- Why a step stops. No rule of the spec stops the part, so there is none. -/
inductive Fault where
deriving DecidableEq, Repr

/-- Why a command has no meaning. -/
inductive Refusal where
  /-- Raised by `exec` alone, for a command whose meaning is not written. Safe: the machine stops. -/
  | notModelled (mnemonic : String)
deriving DecidableEq, Repr

/-! ## Reset values -/

/-- The default settings of a zone (R2). -/
def ZoneSettings.default : ZoneSettings where
  flags := ⟨false, true, false, false⟩
  master := 0
  announce := 24576
  alarm := 32768
  duck := 8192
  alarmDuck := 8192
  nightCap := 16384
  slew := 32768
  threshold := 2

def Holders.empty : Holders := ⟨none, none, none, none⟩

def Gains.zero : Gains := ⟨0, 0, 0, 0, 0, 0⟩

/-- A zone after power-on reset (R2, R3). -/
def ZoneRec.reset : ZoneRec :=
  ⟨.default, .empty, .zero, .zero, .unknown, false, 0, 0⟩

/-- The zone-set table after a reset (R20): entry 0 holds all zones, the others none. -/
def ZoneSet.resetTable : Table 32 ZoneSet := (Table.fill 32 ⟨0, false⟩).set 0 ⟨allZones, false⟩

/-- A held period after a reset (R29). -/
def Held.reset : Held := ⟨silence48, false⟩

def HeldTable.reset : HeldTable :=
  ⟨Table.fill 16 .reset, Table.fill 4 .reset, Table.fill 8 .reset, .reset, Table.fill 64 .reset⟩

/-- ZM's copy of a station after a reset (R42). -/
def ConvCopy.reset : ConvCopy := ⟨.none, false, 24576⟩

/-- ZM after power-on reset. -/
def Zm.reset : Zm where
  zones := Table.fill 64 .reset
  sets := ZoneSet.resetTable
  cross := Table.fill 16 (Table.fill 64 0)
  streams := Table.fill 16 ⟨.background, false⟩
  silenced := false
  held := .reset
  conv := Table.fill 64 .reset
  pages := Table.fill 8 none

/-- A tone step of a factory pattern. -/
def Step.tone (wave : Waveform) (freq level duration : Nat) : Step := ⟨.on, wave, freq, level, duration⟩

/-- A gap of a factory pattern, which holds SQUARE, the frequency before it and level 0 (R141). -/
def Step.rest (freq duration : Nat) : Step := ⟨.gap, .square, freq, 0, duration⟩

/-- The four factory patterns (R141). -/
def factoryPattern : PatIx → Pattern
  | 0 => ⟨0, [.tone .square 8000 20000 500, .rest 8000 500]⟩
  | 1 => ⟨0, (List.replicate 7 [Step.tone .square 7000 24576 1000, .rest 7000 1000]).flatten ++
      [.tone .square 7000 24576 6000, .rest 7000 2000]⟩
  | 2 => ⟨0, [.tone .square 12000 24576 250, .tone .square 9000 24576 250]⟩
  | 3 => ⟨1, [.tone .triangle 10465 16384 400, .tone .triangle 7840 16384 600]⟩

def factoryStore : PatternStore := Table.build factoryPattern

/-- A player after a reset (R54). -/
def PlayerRec.reset : PlayerRec where
  phase := .free
  origin := none
  target := 0
  filtered := 0
  admitted := 0
  interrupted := 0
  clipAddr := 0
  clipLen := 0
  cursor := 0
  lead := false
  mark0 := .notRequested
  mark1 := .notRequested
  played := 0
  late := 0
  startNumber := 0
  gen := none

def Au.reset : Au := ⟨[], false, none, Table.fill 4 .reset⟩

/-- A station after power-on reset (R71). -/
def StationRec.reset : StationRec := ⟨.crew, 0, 24576, .offline, false, [], none⟩

/-- IS after power-on reset (R71, R72, R77, R99). -/
def Ic.reset : Ic :=
  ⟨Table.fill 64 .reset, 30000, 60000, 120000, Table.fill 8 none, Table.fill 2 ⟨false, 0⟩, none⟩

def Run.restarted : Run := ⟨none, 0, false⟩

/-- MAU after power-on reset (R139). -/
def Mau.reset : Mau where
  stage := .idle
  published := .idle
  silenced := false
  active := .pa
  revert := 0
  passA := false
  passB := false
  run := .restarted
  ignored := 0
  test := none
  gen := none
  k := 8
  r := 1000
  store := factoryStore
  loads := []
  nextLoad := 0
  awaiting := none

/-- A stream channel after any reset (R153). -/
def Chan.reset : Chan where
  cls := .background
  ring := none
  state := .stopped
  cursor := 0
  playing := none
  next := none
  marks := []
  probe := none
  stopPending := false
  startNumber := 0
  fader := ⟨0, 0, 0⟩
  starves := 0
  lates := 0

/-- The show after any reset (R171). -/
def Show.reset : Show := ⟨.empty, [], none, 0, 0, 0, false⟩

def Su.reset : Su := ⟨Table.fill 16 .reset, .reset, none⟩

/-- A port after power-on or hardware reset (R194), its line carrying no signal. -/
def Rx.reset : Rx := ⟨false, .down, 0, 0, none, 0, false, 0, 0, 0⟩

/-- LP after power-on or hardware reset (R194). -/
def Lp.reset : Lp where
  rx := Table.fill 8 .reset
  slots := Table.fill 2 ⟨0, false⟩
  outSeq := Table.fill 8 0
  stationTx := Table.fill 64 .reset
  zoneTx := Table.fill 64 ⟨.reset, false, true⟩
  sent := Table.fill 8 []

/-- XU after power-on or hardware reset (R196, R204, R206, R212, R214, R215). The intervals of an area header not
yet read stand at 1 and 0, and the counts toward them, which R212 starts at an attach, at 0 (assumption 4). -/
def Xu.reset : Xu where
  attach := .detached
  areaLo := 0
  areaHi := 0
  notice := 0
  noticeEnable := 0
  readData := 0
  mode := .standby
  shadows := Table.fill 64 .free
  refusals := 0
  scanInterval := 1
  meterInterval := 0
  scanCount := 0
  meterCount := 0
  pass := none
  passPending := false
  dispatch := none
  pages := Table.fill 6 ⟨.clean, 0⟩
  meterPage := 0
  meterWriting := false

def Bus.reset : Bus := ⟨[], none⟩

/-- Nothing in flight (R202). -/
def Net.reset : Net where
  auToZm := []
  isToZm := []
  mauToZm := []
  suToZm := []
  xuToZm := []
  ampToZm := Table.fill 4 []
  deliveries := []
  zmToAu := none
  zmToIs := none
  zmToMau := none
  releaseNotices := 0
  heldNotices := 0
  preemptions := 0
  alarmHolds := 0
  xuToAu := []
  xuToIs := []
  xuToSu := []
  stationToIs := Table.fill 2 []
  panelToMau := Table.fill 2 []

/-- The part right after power-on reset, no line carrying signal, no command waiting (R202). -/
def State.reset : State where
  pending := []
  xu := .reset
  bus := .reset
  zm := .reset
  au := .reset
  ic := .reset
  mau := .reset
  su := .reset
  lp := .reset
  net := .reset

end Sys2Proof.Machine
end

