-- ==== Sys2Proof/Machine/Flags.lean ====
section
/-! DEFINITION. Arithmetic, and every value the spec derives from the state and does not store twice: path targets,
the override bit, the effective level, the interrupt line, a station's indicator, the coverage counts. -/

namespace Sys2Proof.Machine

/-! ## Quantities (spec 0.6, 0.8) -/

/-- A quantity clamped to a range. -/
def clamp (lo hi v : Nat) : Nat := if v < lo then lo else if hi < v then hi else v

/-- A gain-code quantity, clamped to 0 to 32,768 (R2, R35, R46, R95, R143). -/
def clampGain (v : Nat) : Nat := min v Config.maxGain

/-- A saturating count risen by `k`. -/
def satAdd (cap k v : Nat) : Nat := min cap (v + k)

/-- A 16-bit saturating count risen by 1. -/
def countUp (v : Nat) : Nat := satAdd Config.maxCount 1 v

/-- Whether an address is a multiple of 64 (R48, R142, R164, R169). -/
def aligned64 (a : Addr) : Bool := a.toNat % 64 = 0

/-! ## Sample and gain arithmetic (R26 to R28) -/

/-- The round-and-scale product of an integer and a signed multiplier: floor((x · m + 16,384) / 32,768) (R27,
R150). -/
def roundScale (x m : Int) : Int := (x * m + 16384) / 32768

/-- rs(x, g) for a gain code g (R27). -/
def rs (x : Int) (g : Nat) : Int := roundScale x g

/-- The product of two gain codes, itself a gain code (R28). -/
def gainProduct (a b : Nat) : Nat := (a * b + 16384) / 32768

/-- Saturation to the 24-bit range (R26, R38, R43, R44). -/
def sat24 (x : Int) : Int := max Config.sampleMin (min Config.sampleMax x)

/-- Whether saturation changes a value (R39). -/
def overflows24 (x : Int) : Bool := x < Config.sampleMin || Config.sampleMax < x

/-- The 48 samples of a fetched period, clamped (R26). -/
def clampWords (w : Table 48 Int) : Period := w.update fun _ x => sat24 x

/-! ## Zone settings (R2) -/

/-- The flags byte of ZONE_SET and ZONE_FILL; bits that name no flag are discarded (R2, R209). -/
def zoneFlags (b : BitVec 8) : ZoneFlags := ⟨b.getLsbD 0, b.getLsbD 1, b.getLsbD 2, b.getLsbD 3⟩

/-- A slew step as stored (R2). -/
def clampSlew (v : Nat) : Nat := clamp 1 32768 v

/-- An override threshold as stored (R2). -/
def clampThreshold (v : Nat) : Nat := clamp 1 3 v

/-! ## Claims (R7, R9) -/

/-- The highest held class of a zone by its rank; 4 is NONE (R7, R211). -/
def Holders.highest (h : Holders) : Nat :=
  if h.ev.isSome then 0 else if h.alarm.isSome then 1 else if h.live.isSome then 2
  else if h.prog.isSome then 3 else 4

/-- The admission rule of each class (R9). -/
def Holders.admits (h : Holders) : Claim → Bool
  | .programmed _ => h.prog.isNone && h.live.isNone && h.alarm.isNone && h.ev.isNone
  | .live _ => h.live.isNone && h.alarm.isNone && h.ev.isNone
  | .ev _ => h.ev.isNone
  | .alarm _ => true

/-- The holder fields after an admitted claim; an ALARM field that holds ALARM-STAGE stays so (R8, R10). -/
def Holders.write (h : Holders) : Claim → Holders
  | .programmed p => { h with prog := some p }
  | .live c => { h with live := some c }
  | .ev c => { h with ev := some c }
  | .alarm .stage => { h with alarm := some .stage }
  | .alarm .test => { h with alarm := some (h.alarm.getD .test) }

/-- The holder fields after a release; ALARM is emptied whichever claimant it names (R12). -/
def Holders.release (h : Holders) : Claim → Holders
  | .programmed p => if h.prog = some p then { h with prog := none } else h
  | .live c => if h.live = some c then { h with live := none } else h
  | .ev c => if h.ev = some c then { h with ev := none } else h
  | .alarm _ => { h with alarm := none }

/-- The override bit: the rank of the highest held class at or below the threshold, or ALARM or EV held (R17). -/
def overrideBit (threshold : Nat) (h : Holders) : Bool :=
  (h.highest < 4 && h.highest ≤ threshold) || h.alarm.isSome || h.ev.isSome

/-! ## Path targets (R13 to R16) -/

/-- Whether the alarm is silent in a zone: silence acts on ALARM-STAGE alone (R14). -/
def alarmMuted (silenced : Bool) (h : Holders) : Bool := silenced && h.alarm = some .stage

/-- The targets of the event classes, before the overlays (R14). -/
def evTarget (z : ZoneSettings) (h : Holders) : Nat := if h.ev.isSome then z.announce else 0

def alarmTarget (z : ZoneSettings) (h : Holders) (silenced : Bool) : Nat :=
  if h.alarm.isNone || alarmMuted silenced h then 0
  else if h.ev.isSome then gainProduct z.alarm z.alarmDuck else z.alarm

def liveTarget (z : ZoneSettings) (h : Holders) : Nat :=
  if h.live.isSome && h.ev.isNone && h.alarm.isNone then z.announce else 0

def progTarget (z : ZoneSettings) (h : Holders) : Nat :=
  if h.prog.isSome && h.live.isNone && h.alarm.isNone && h.ev.isNone then z.announce else 0

/-- What both bed classes take under the event classes (R15). -/
def bedTarget (z : ZoneSettings) (h : Holders) : Nat :=
  if h.ev.isSome || h.alarm.isSome then 0
  else if h.live.isSome || h.prog.isSome then gainProduct z.master z.duck else z.master

def showTarget (z : ZoneSettings) (h : Holders) : Nat := if z.flags.theatre then bedTarget z h else 0

def bgTarget (z : ZoneSettings) (h : Holders) (mode : Mode) (showActive : Bool) : Nat :=
  if showActive then 0 else if mode = .night && z.flags.cabin then 0 else bedTarget z h

/-- The overlays on a class the night cap and the mode act on (R16, 1 and 2). -/
def programmeOverlay (z : ZoneSettings) (mode : Mode) (t : Nat) : Nat :=
  let capped := if mode = .night && z.flags.cabin then min t z.nightCap else t
  if mode = .standby || mode = .service then 0 else capped

/-- The overlay of a SHORT line, on every class (R16, 3). -/
def lineOverlay (line : LineStatus) (t : Nat) : Nat := if line = .short then 0 else t

/-- The six targets of a zone (R13 to R16). -/
def ZoneRec.targets (z : ZoneRec) (mode : Mode) (silenced showActive : Bool) : Gains :=
  let p := programmeOverlay z.settings mode
  let l := lineOverlay z.line
  { ev := l (evTarget z.settings z.holders)
    alarm := l (alarmTarget z.settings z.holders silenced)
    live := l (p (liveTarget z.settings z.holders))
    prog := l (p (progTarget z.settings z.holders))
    show_ := l (p (showTarget z.settings z.holders))
    bg := l (p (bgTarget z.settings z.holders mode showActive)) }

/-- Whether SHOW is active in a zone (R15): THEATRE, and a RUNNING channel of class SHOW with a nonzero crosspoint. -/
def Zm.showActive (m : Zm) (z : Zone) : Bool :=
  (m.zones.get z).settings.flags.theatre &&
    (List.finRange 16).any fun c =>
      (m.streams.get c).running && (m.streams.get c).cls = .show && (m.cross.get c).get z ≠ 0

/-- The effective level: the current of the highest class whose target is nonzero, or 0 (R18). -/
def ZoneRec.effective (z : ZoneRec) : Nat :=
  if z.target.ev ≠ 0 then z.current.ev else if z.target.alarm ≠ 0 then z.current.alarm
  else if z.target.live ≠ 0 then z.current.live else if z.target.prog ≠ 0 then z.current.prog
  else if z.target.show_ ≠ 0 then z.current.show_ else if z.target.bg ≠ 0 then z.current.bg else 0

/-- The mute bit of a zone: all six currents 0 (R41). -/
def Gains.mute (g : Gains) : Bool :=
  g.ev = 0 && g.alarm = 0 && g.live = 0 && g.prog = 0 && g.show_ = 0 && g.bg = 0

/-- Whether AU finds a zone held back: its PROGRAMMED target is 0 for a cause of R61, the night cap not being one. -/
def ZoneRec.heldBack (z : ZoneRec) (mode : Mode) : Bool :=
  z.target.prog = 0 &&
    (z.holders.live.isSome || z.holders.alarm.isSome || z.holders.ev.isSome
      || mode = .standby || mode = .service || z.line = .short || z.settings.announce = 0)

/-- The zones the night filter removes (R49). -/
def Zm.nightFiltered (m : Zm) (mask : ZoneMask) : ZoneMask :=
  maskOf fun z => inMask mask z && (m.zones.get z).settings.flags.cabin
    && !(m.zones.get z).settings.flags.nightPermit

/-- The zones that carry CREW (R4, R127). -/
def Zm.crewZones (m : Zm) : ZoneMask := maskOf fun z => (m.zones.get z).settings.flags.crew

/-! ## Coverage counts (R136) -/

/-- How many zones hold ALARM, and how many of those have each line status. -/
def Zm.alarmHeld (m : Zm) : Nat :=
  ((List.finRange 64).filter fun z => (m.zones.get z).holders.alarm.isSome).length

def Zm.alarmHeldWith (m : Zm) (l : LineStatus) : Nat :=
  ((List.finRange 64).filter fun z =>
    (m.zones.get z).holders.alarm.isSome && (m.zones.get z).line = l).length

/-! ## Stages (R122) -/

/-- The order of the stages, and their code in pages and frames (R195, R211). -/
def Stage.rank : Stage → Nat
  | .idle => 0
  | .alert => 1
  | .general => 2
  | .abandon => 3

/-- Whether a stage refuses SHOW_GO and SHOW_RESUME (R174, R177). -/
def Stage.muster (s : Stage) : Bool := s = .general || s = .abandon

/-- The pattern slot of a stage's tone (R130). -/
def Stage.pattern : Stage → PatIx
  | .idle => 0
  | .alert => 0
  | .general => 1
  | .abandon => 2

/-! ## Stations (R71, R74) -/

/-- The online flag (R71): a station is OFFLINE exactly when it is not online. -/
def Standing.online : Standing → Bool
  | .offline => false
  | _ => true

def Standing.isIdle : Standing → Bool
  | .idle _ => true
  | _ => false

/-- What IS posts to ZM of a state (R92). -/
def Standing.conv : Standing → ConvStanding
  | .talking p => .pair p
  | .group g => .group g
  | _ => .none

/-- The indicator code of a station (R74). -/
def Ic.indicator (c : Ic) (st : Station) : Indicator :=
  match (c.stations.get st).standing with
  | .offline => .quiet
  | .idle .quiet => .quiet
  | .idle .busyDenied => .busyDenied
  | .idle .noAnswer => .noAnswer
  | .calling _ => .ringback
  | .ringing _ _ => .ring
  | .talking _ => .talk
  | .waiting _ _ => .queued
  | .group _ => .group
  | .paging ch =>
    match c.channels.get ch with
    | some p => if p.phase = .chime then .pageChime else .pageOpen
    | none => .pageOpen

/-- The indicator codes of a frame (R195). -/
def Indicator.code : Indicator → BitVec 4
  | .quiet => 0
  | .ring => 1
  | .ringback => 2
  | .queued => 3
  | .busyDenied => 4
  | .talk => 5
  | .group => 6
  | .pageChime => 7
  | .pageOpen => 8
  | .noAnswer => 9

/-! ## Notices and the interrupt line (R205) -/

def noticeFinished : BitVec 32 := 0x01
def noticePages : BitVec 32 := 0x02
def noticeAlarm : BitVec 32 := 0x04
def noticeLink : BitVec 32 := 0x08
def noticeAreaFault : BitVec 32 := 0x10

/-- The five bits NOTICE and NOTICE_ENABLE have (R204). -/
def noticeBits : BitVec 32 := 0x1F

/-- The interrupt line: asserted while a bit is set in both registers (R205). -/
def Xu.interrupt (x : Xu) : Bool := x.notice &&& x.noticeEnable ≠ 0

/-- What a read of a register returns (R204); a read of NOTICE also clears it, which NOTICE_READ does. -/
def Xu.register (x : Xu) : Register → BitVec 32
  | .ident => Config.ident
  | .control => if x.attach = .detached then 0 else 1
  | .areaLo => x.areaLo
  | .areaHi => x.areaHi
  | .notice => x.notice
  | .noticeEnable => x.noticeEnable

/-- The 64-bit base of the area (R204). -/
def Xu.base (x : Xu) : Addr := x.areaHi ++ x.areaLo

end Sys2Proof.Machine

namespace Sys2Proof

/-! ## Numbers of ports (R182, R211) -/

def Port.ix : Port → Fin 8
  | .s0 => 0
  | .s1 => 1
  | .pa => 2
  | .pb => 3
  | .m0 => 4
  | .m1 => 5
  | .m2 => 6
  | .m3 => 7

def StationPort.ix : StationPort → Fin 2
  | .s0 => 0
  | .s1 => 1

def StationPort.port : StationPort → Port
  | .s0 => .s0
  | .s1 => .s1

def PanelPort.ix : PanelPort → Fin 2
  | .pa => 0
  | .pb => 1

def PanelPort.port : PanelPort → Port
  | .pa => .pa
  | .pb => .pb

def PanelPort.other : PanelPort → PanelPort
  | .pa => .pb
  | .pb => .pa

def AmpPort.ix : AmpPort → Fin 4
  | .m0 => 0
  | .m1 => 1
  | .m2 => 2
  | .m3 => 3

def AmpPort.port : AmpPort → Port
  | .m0 => .m0
  | .m1 => .m1
  | .m2 => .m2
  | .m3 => .m3

/-- Station slot `k` of S0 is station k, of S1 station 32 + k (R182). -/
def StationPort.station (p : StationPort) (k : Fin 32) : Station := ⟨32 * p.ix.val + k.val, by omega⟩

/-- Zone channel `k` of port Mn is zone 16n + k (R182). -/
def AmpPort.zone (p : AmpPort) (k : Fin 16) : Zone := ⟨16 * p.ix.val + k.val, by omega⟩

/-- The port that serves a station (R71). -/
def stationPort (st : Station) : StationPort := if st.val < 32 then .s0 else .s1

/-- A station's slot on its port (R71). -/
def stationSlot (st : Station) : Nat := st.val % 32

/-- The port that serves a zone (R182). -/
def zonePort (z : Zone) : Fin 4 := ⟨z.val / 16, by omega⟩

end Sys2Proof

namespace Sys2Proof.Machine

def StatusPage.ix : StatusPage → Fin 6
  | .general => 0
  | .link => 1
  | .zone => 2
  | .station => 3
  | .stream => 4
  | .show => 5

def statusPages : List StatusPage := [.general, .link, .zone, .station, .stream, .show]

/-! ## Audio sources (R29) -/

def HeldTable.get (h : HeldTable) : Source → Held
  | .stream c => h.streams.get c
  | .player p => h.players.get p
  | .pageChime c => h.chimes.get c
  | .alarmTone => h.tone
  | .mic st => h.mics.get st

/-- A delivery: the samples replace the held period and it is fresh (R29). -/
def HeldTable.deliver (h : HeldTable) (src : Source) (p : Period) : HeldTable :=
  match src with
  | .stream c => { h with streams := h.streams.set c ⟨p, true⟩ }
  | .player q => { h with players := h.players.set q ⟨p, true⟩ }
  | .pageChime c => { h with chimes := h.chimes.set c ⟨p, true⟩ }
  | .alarmTone => { h with tone := ⟨p, true⟩ }
  | .mic st => { h with mics := h.mics.set st ⟨p, true⟩ }

/-- A held period with its mark cleared. -/
def Held.stale (h : Held) : Held := { h with fresh := false }

/-- Every mark cleared (R30, step 4). -/
def HeldTable.stale (h : HeldTable) : HeldTable where
  streams := h.streams.update fun _ x => x.stale
  players := h.players.update fun _ x => x.stale
  chimes := h.chimes.update fun _ x => x.stale
  tone := h.tone.stale
  mics := h.mics.update fun _ x => x.stale

/-- What a source supplies at a mix period start: its samples if fresh, else zeros (R29). -/
def Held.supplies (h : Held) (i : Fin 48) : Int := if h.fresh then h.samples.get i else 0

end Sys2Proof.Machine
end

