-- ==== Sys2Proof/Machine/Operands.lean ====
section
/-! DEFINITION. What the part writes and checks: the codes and layouts of completions and status pages (R208, R209, R211,
R214), the classes of bus transfers (R218), the modes that accept a request (R198), and the checks and fields of
link frames (R195). -/

namespace Sys2Proof.Machine

/-! ## Requests (R198) -/

/-- The modes in which a request is accepted (R198). -/
def acceptedIn (r : Request) (m : Mode) : Bool :=
  match r with
  | .setMode _ | .announceCancel _ | .stationSet _ | .intercomConfig _ | .callRelease _ | .alarmConfig _
  | .patternLoad _ | .zoneSet _ | .zoneFill _ | .zonesetDefine _ | .routeSet _ | .streamSet _ => true
  | .announce _ | .callConnect _ | .streamStart _ | .streamStop _ | .streamLevel _ | .showGo | .showHold
  | .showResume | .showStop _ => m = .normal || m = .night
  | .alarmTest _ => m ≠ .standby
  | .showLoad _ => m ≠ .service

/-- The unit a request is dispatched to. -/
def requestOwner : Request → Block
  | .setMode _ => .xu
  | .zoneSet _ | .zoneFill _ | .zonesetDefine _ | .routeSet _ => .zm
  | .announce _ | .announceCancel _ => .au
  | .stationSet _ | .intercomConfig _ | .callConnect _ | .callRelease _ => .is
  | .alarmConfig _ | .alarmTest _ | .patternLoad _ => .mau
  | .streamSet _ | .streamStart _ | .streamStop _ | .streamLevel _ | .showLoad _ | .showGo | .showHold
  | .showResume | .showStop _ => .su

/-! ## Codes (R197, R211, R214) -/

def Mode.code : Mode → Nat
  | .standby => 0
  | .normal => 1
  | .night => 2
  | .service => 3

/-- The mode a SET_MODE code names (R197). -/
def modeOfCode (c : Nat) : Option Mode :=
  if c = 0 then some .standby else if c = 1 then some .normal else if c = 2 then some .night
  else if c = 3 then some .service else none

def LineStatus.code : LineStatus → Nat
  | .ok => 0
  | .opened => 1
  | .short => 2
  | .ampFault => 3
  | .unknown => 4

/-- The line status a back-channel code names (R195). -/
def lineOfCode (c : BitVec 2) : LineStatus :=
  if c = 0 then .ok else if c = 1 then .opened else if c = 2 then .short else .ampFault

def Lock.code : Lock → Nat
  | .down => 0
  | .acquire => 1
  | .locked => 2

def Standing.code : Standing → Nat
  | .offline => 0
  | .idle _ => 1
  | .calling _ => 2
  | .ringing _ _ => 3
  | .talking _ => 4
  | .waiting _ _ => 5
  | .group _ => 6
  | .paging _ => 7

/-- The partner, group or channel field of a station entry (R211). -/
def Standing.with_ : Standing → Nat
  | .calling p => p.val
  | .ringing p _ => p.val
  | .talking p => p.val
  | .waiting p _ => p.val
  | .group g => g.val
  | .paging c => c.val
  | _ => 0xFF

def StreamState.code : StreamState → Nat
  | .stopped => 0
  | .running => 1
  | .starved => 2
  | .paused _ => 3
  | .fault => 4

def ShowState.code : ShowState → Nat
  | .empty => 0
  | .loaded => 1
  | .running => 2
  | .held _ => 3
  | .ended => 4

/-- The hold-reason field of the show page (R211). -/
def ShowState.reasonCode : ShowState → Nat
  | .held .host => 1
  | .held .alarm => 2
  | _ => 0

def holderCode {n : Nat} : Option (Fin n) → Nat
  | some c => c.val
  | none => 0xFF

def alarmCode : Option AlarmHolder → Nat
  | some .stage => 1
  | some .test => 2
  | none => 0xFF

def JobOutcome.code : JobOutcome → Byte
  | .ok => 0x00
  | .played => 0x01
  | .partly => 0x02
  | .cancelled => 0x03
  | .preempted => 0x04
  | .expired => 0x05
  | .filtered => 0x06
  | .aborted => 0x07

def RefusalCode.code : RefusalCode → Byte
  | .format => 0x10
  | .mode => 0x11
  | .align => 0x12
  | .state => 0x13
  | .full => 0x14
  | .noTarget => 0x15
  | .badList => 0x16
  | .bus => 0x17

/-- The state, code and detail bytes of a completion (R208, R214). The detail of a DONE is 0, as R62, R63 and R132
give it and as the model takes it where a rule gives none (assumption 35). -/
def Completion.state : Completion → Byte
  | .done _ _ => slotDone
  | .refused _ _ => slotRefused

def Completion.code : Completion → Byte
  | .done o _ => o.code
  | .refused c _ => c.code

def Completion.detail : Completion → Byte
  | .done _ _ => 0
  | .refused _ d => BitVec.ofNat 8 d

def boolBit (b : Bool) : Nat := if b then 1 else 0

/-! ## Records the part writes -/

/-- A record of `size` bytes from its fields, each with its offset, its size and its value; bytes that no field
names are 0 (R208). -/
def record (size : Nat) (fields : List (Nat × Nat × Nat)) : List Byte :=
  fields.foldl
    (fun acc f => acc.take f.1 ++ leBytes f.2.1 f.2.2 ++ acc.drop (f.1 + f.2.1))
    (List.replicate size 0)

/-- Bytes 40 to 63 of a slot, for the kinds that have results (R209). -/
def Results.bytes : Results → Option (List Byte)
  | .none => Option.none
  | .modes a b => some (record 24 [(0, 1, a.code), (1, 1, b.code)])
  | .zones n => some (record 24 [(0, 1, n)])
  | .announcement a h p l => some (record 24 [(0, 8, a.toNat), (8, 8, h.toNat), (16, 4, p), (20, 2, l)])
  | .test m r => some (record 24 [(0, 8, m.toNat), (8, 4, r)])
  | .pattern c p => some (record 24 [(0, 1, c), (4, 4, p)])
  | .cues c a => some (record 24 [(0, 2, c), (2, 2, a)])

/-- The results a completion carries to the slot: none for a refusal (R209). -/
def Completion.resultBytes : Completion → Option (List Byte)
  | .done _ r => r.bytes
  | .refused _ _ => none

/-- Offsets of the area (R208). -/
def slotOffset (i : SlotIx) : Addr := BitVec.ofNat 64 (0x100 + 64 * i.val)

def StatusPage.offset : StatusPage → Addr
  | .general => 0x1100
  | .link => 0x1200
  | .zone => 0x1300
  | .station => 0x1C00
  | .stream => 0x2100
  | .show => 0x2400

def meterOffset : Addr := 0x2500

/-- The next cue of the show: whether one is present, and its number (R181). -/
def Show.nextCue (w : Show) : Option Cue := w.pointer.bind fun i => w.cues[i]?

/-- The next-cue-number field, a free value when no cue is present. -/
def Show.nextNumber (w : Show) (count : BitVec 32) : Nat :=
  match w.nextCue with
  | some c => c.number
  | none => (Config.absentCueNumber count.toNat).toNat

/-- The general page (R211), its change count left 0. -/
def generalPage (s : State) : List Byte :=
  let w := s.su.theShow
  record 256
    [(4, 1, s.xu.mode.code), (5, 1, s.mau.published.rank), (6, 1, boolBit s.mau.silenced),
      (7, 1, s.mau.active.ix.val), (8, 1, boolBit s.mau.passA), (9, 1, boolBit s.mau.passB),
      (12, 1, s.zm.alarmHeld), (13, 1, s.zm.alarmHeldWith .ok), (14, 1, s.zm.alarmHeldWith .opened),
      (15, 1, s.zm.alarmHeldWith .short), (16, 1, s.zm.alarmHeldWith .ampFault),
      (17, 1, s.zm.alarmHeldWith .unknown), (18, 1, w.state.code), (19, 1, boolBit w.nextCue.isSome),
      (20, 2, w.nextNumber (s.xu.pages.get StatusPage.general.ix).count), (24, 4, w.clock), (28, 2, w.dropped),
      (30, 2, s.mau.ignored), (32, 2, s.xu.refusals)]

/-- The announced slot count and mismatch flag of a port's link entry: 0 but for the station ports (R193). -/
def linkSlots (lp : Lp) (i : Fin 8) : SlotCount :=
  if i = 0 then lp.slots.get 0 else if i = 1 then lp.slots.get 1 else ⟨0, false⟩

/-- A link entry (R211). -/
def linkEntry (lp : Lp) (i : Fin 8) : List Byte :=
  let r := lp.rx.get i
  record 32
    [(4, 1, r.lock.code), (5, 1, boolBit r.pass), (6, 1, r.score), (8, 2, r.crcErrors), (10, 2, r.seqErrors),
      (12, 2, r.lockLosses), (14, 1, (linkSlots lp i).count), (15, 1, boolBit (linkSlots lp i).mismatch)]

def linkPage (s : State) : List Byte := (List.finRange 8).flatMap (linkEntry s.lp)

/-- A zone entry (R211). -/
def zoneEntry (z : ZoneRec) : List Byte :=
  record 32
    [(0, 1, z.line.code), (1, 1, z.holders.highest), (2, 1, boolBit z.override), (4, 1, holderCode z.holders.ev),
      (5, 1, alarmCode z.holders.alarm), (6, 1, holderCode z.holders.live), (7, 1, holderCode z.holders.prog),
      (8, 2, z.effective), (10, 2, z.clips)]

/-- A page whose entries begin at 0x20, filled up to its size (R211). -/
def entryPage (size : Nat) (entries : List Byte) : List Byte :=
  let b := List.replicate 0x20 0 ++ entries
  b ++ List.replicate (size - b.length) 0

def zonePage (s : State) : List Byte :=
  entryPage 2304 ((List.finRange 64).flatMap fun z => zoneEntry (s.zm.zones.get z))

/-- A station entry (R211). -/
def stationEntry (c : Ic) (st : Station) : List Byte :=
  let r := c.stations.get st
  record 16
    [(0, 1, r.standing.code), (1, 1, r.standing.with_), (2, 1, (c.indicator st).code.toNat),
      (3, 1, boolBit r.standing.online), (4, 1, r.waiting.length)]

def stationPage (s : State) : List Byte := entryPage 1280 ((List.finRange 64).flatMap (stationEntry s.ic))

/-- A stream entry (R211). -/
def streamEntry (c : Chan) : List Byte :=
  record 32
    [(0, 1, c.state.code), (1, 1, c.cursor), (2, 2, c.fader.current), (4, 2, c.starves), (6, 2, c.lates)]

def streamPage (s : State) : List Byte :=
  entryPage 768 ((List.finRange 16).flatMap fun c => streamEntry (s.su.channels.get c))

/-- The show page (R211). -/
def showPage (s : State) : List Byte :=
  let w := s.su.theShow
  record 256
    [(4, 1, w.state.code), (5, 1, w.state.reasonCode), (6, 1, boolBit w.nextCue.isSome),
      (8, 2, w.nextNumber (s.xu.pages.get StatusPage.show.ix).count), (12, 4, w.clock), (16, 2, w.cues.length)]

/-- The content of a status page from the values standing at an event (R211, R216); its count is written apart. -/
def pageBytes (s : State) : StatusPage → List Byte
  | .general => generalPage s
  | .link => linkPage s
  | .zone => zonePage s
  | .station => stationPage s
  | .stream => streamPage s
  | .show => showPage s

/-- The meter page's 64 peaks (R211, R217). -/
def meterBytes (m : Zm) : List Byte :=
  entryPage 2816 ((List.finRange 64).flatMap fun z => leBytes 4 (m.zones.get z).peak)

/-! ## Bus transfers (R218) -/

/-- The arbiter's order: the class of a transfer, stream fetches before clips within the audio class. -/
def Job.rank : Job → Nat
  | .probe .. | .block .. => 0
  | .clip .. => 1
  | .descriptor .. => 2
  | .taken _ | .results _ | .code _ | .state _ => 3
  | .pageOpen _ | .pageBody _ | .pageClose _ | .meterOpen | .meterBody | .meterClose => 4
  | .slotRead _ | .header | .patternList _ | .cueList => 5

/-- Area traffic whose bus error detaches: slot reads, slot writes and page writes (R207). -/
def Job.areaError : Job → Bool
  | .taken _ | .results _ | .code _ | .state _ | .pageOpen _ | .pageBody _ | .pageClose _ | .meterOpen
  | .meterBody | .meterClose | .slotRead _ => true
  | _ => false

/-- Area traffic, whose completion a detach discards (R206, R207). -/
def Job.area : Job → Bool
  | .header => true
  | j => j.areaError

/-- Transfers whose error-free completion is no event at any unit: the writes that are not the last of a slot or
page. -/
def Job.quiet : Job → Bool
  | .taken _ | .results _ | .code _ | .pageOpen _ | .pageBody _ | .meterOpen | .meterBody => true
  | _ => false

def readOf (job : Job) (addr : Addr) (size : Nat) : Transfer := ⟨job, addr, size, [], true⟩

def writeOf (job : Job) (addr : Addr) (bytes : List Byte) : Transfer := ⟨job, addr, bytes.length, bytes, true⟩

/-- The three writes of a completion, in order (R214). The sum of the base and an offset is taken modulo 2^64 (assumption
26). -/
def completionWrites (base : Addr) (slot : SlotIx) (c : Completion) : List Transfer :=
  let a := base + slotOffset slot
  (match c.resultBytes with
    | some b => [writeOf (.results slot) (a + 40) b]
    | none => [])
  ++ [writeOf (.code slot) (a + 2) [c.code, c.detail], writeOf (.state slot) a [c.state]]

/-- The three writes of a page rewrite whose count stood at `count` (R216), at the base and the page's offset modulo 2^64
(assumption 26). -/
def pageWrites (base : Addr) (p : StatusPage) (count : BitVec 32) (content : List Byte) : List Transfer :=
  let a := base + p.offset
  [writeOf (.pageOpen p) a (leBytes 4 (count + 1).toNat), writeOf (.pageBody p) (a + 4) (content.drop 4),
    writeOf (.pageClose p) a (leBytes 4 (count + 2).toNat)]

/-- The writes of a meter page rewrite (R217), at the base and the page's offset modulo 2^64 (assumption 26). -/
def meterWrites (base : Addr) (count : BitVec 32) (content : List Byte) : List Transfer :=
  let a := base + meterOffset
  [writeOf .meterOpen a (leBytes 4 (count + 1).toNat), writeOf .meterBody (a + 4) (content.drop 4),
    writeOf .meterClose a (leBytes 4 (count + 2).toNat)]

/-! ## Link frames (R195) -/

/-- The bits of a field, most significant first. -/
def bitsOf {n : Nat} (v : BitVec n) : List Bool := (List.range n).map v.getMsbD

/-- One bit through a check of width `n` with generator `g`. -/
def crcBit {n : Nat} (g c : BitVec n) (b : Bool) : BitVec n :=
  if c.msb != b then (c <<< 1) ^^^ g else c <<< 1

/-- CRC-16: x^16 + x^12 + x^5 + 1, initial value 0xFFFF (R195). -/
def crc16 (bits : List Bool) : BitVec 16 := bits.foldl (crcBit 0x1021) 0xFFFF

/-- CRC-8: x^8 + x^2 + x + 1, initial value 0 (R195). -/
def crc8 (bits : List Bool) : BitVec 8 := bits.foldl (crcBit 0x07) 0

/-- The fields a station frame's check covers. -/
def stationCheckBits (f : StationFrame) : List Bool :=
  bitsOf f.sequence ++ bitsOf f.slotCount ++ bitsOf f.reserved
    ++ f.words.toList.flatMap fun w => bitsOf w.event ++ bitsOf w.arg ++ bitsOf w.counter

def stationCheckGood (f : StationFrame) : Bool := f.crc = crc16 (stationCheckBits f)

/-- The fields a panel frame's check covers. -/
def panelCheckBits (f : PanelFrame) : List Bool := bitsOf f.sequence ++ bitsOf f.command ++ bitsOf f.identity

def panelCheckGood (f : PanelFrame) : Bool := f.crc = crc8 (panelCheckBits f)

/-- The fields a back-channel frame's check covers. -/
def backCheckBits (f : BackFrame) : List Bool :=
  bitsOf f.sequence ++ bitsOf f.reserved ++ f.lines.toList.flatMap bitsOf

def backCheckGood (f : BackFrame) : Bool := f.crc = crc16 (backCheckBits f)

/-- The panel command of a code, absent for NOP and for undefined codes (R114). -/
def panelCommand (c : BitVec 4) : Option PanelCommand :=
  if c = 1 then some .alert else if c = 2 then some .general else if c = 3 then some .abandon
  else if c = 4 then some .silence else if c = 5 then some .resound else if c = 6 then some .standDown else none

end Sys2Proof.Machine
end

