-- ==== Sys2Proof/Machine/Ops.lean ====
section
/-! DEFINITION. The operations every block shares: updates of one block's record, messages between blocks, notices (R205),
the bus-master port (R218), completions (R214), the scan pass (R213) and the posting of pages (R215, R216). -/

namespace Sys2Proof.Machine

/-- What a command answers. -/
abbrev Out := Host.Outcome State Fault Refusal

/-- The thing a number names, if there is one: a selector out of range names none (R214). -/
def index (n k : Nat) : Option (Fin n) := if h : k < n then some ⟨k, h⟩ else none

/-! ## One block at a time -/

def State.modXu (s : State) (f : Xu → Xu) : State := { s with xu := f s.xu }
def State.modBus (s : State) (f : Bus → Bus) : State := { s with bus := f s.bus }
def State.modZm (s : State) (f : Zm → Zm) : State := { s with zm := f s.zm }
def State.modAu (s : State) (f : Au → Au) : State := { s with au := f s.au }
def State.modIc (s : State) (f : Ic → Ic) : State := { s with ic := f s.ic }
def State.modMau (s : State) (f : Mau → Mau) : State := { s with mau := f s.mau }
def State.modSu (s : State) (f : Su → Su) : State := { s with su := f s.su }
def State.modLp (s : State) (f : Lp → Lp) : State := { s with lp := f s.lp }
def State.modNet (s : State) (f : Net → Net) : State := { s with net := f s.net }

/-! ## Messages -/

/-- What the units have sent ZM and ZM has not taken, by sender (R12). -/
def Net.toZm (n : Net) : Block → List ZmMsg
  | .au => n.auToZm
  | .is => n.isToZm
  | .mau => n.mauToZm
  | .su => n.suToZm
  | .xu => n.xuToZm
  | .zm | .lp => []

def Net.setToZm (n : Net) (u : Block) (q : List ZmMsg) : Net :=
  match u with
  | .au => { n with auToZm := q }
  | .is => { n with isToZm := q }
  | .mau => { n with mauToZm := q }
  | .su => { n with suToZm := q }
  | .xu => { n with xuToZm := q }
  | .zm | .lp => n

/-- Unit `u` sends ZM a message. -/
def State.sendZm (s : State) (u : Block) (m : ZmMsg) : State :=
  s.modNet fun n => n.setToZm u (n.toZm u ++ [m])

/-- ZM has taken the oldest message of unit `u`. -/
def State.tookZm (s : State) (u : Block) : State := s.modNet fun n => n.setToZm u (n.toZm u).tail

/-- The answer that waits for a claiming unit (R8). -/
def Net.answer (n : Net) : Block → Option ZoneMask
  | .au => n.zmToAu
  | .is => n.zmToIs
  | .mau => n.zmToMau
  | _ => none

def Net.setAnswer (n : Net) (u : Block) (a : Option ZoneMask) : Net :=
  match u with
  | .au => { n with zmToAu := a }
  | .is => { n with zmToIs := a }
  | .mau => { n with zmToMau := a }
  | _ => n

/-- A period of samples sent to ZM (R29). -/
def State.deliver (s : State) (src : Source) (p : Period) : State :=
  s.modNet fun n => { n with deliveries := n.deliveries ++ [(src, p)] }

/-! ## Notices (R205) -/

def State.raise (s : State) (bit : BitVec 32) : State := s.modXu fun x => { x with notice := x.notice ||| bit }

/-! ## The bus-master port (R218) -/

/-- Transfers given to the port, to wait behind those of their class already there. -/
def State.issue (s : State) (ts : List Transfer) : State :=
  s.modBus fun b => { b with waiting := b.waiting ++ ts }

/-- What the transfer in progress is for; none if its completion is to be discarded. -/
def State.inProgress (s : State) : Option Job :=
  s.bus.current.bind fun t => if t.live then some t.job else none

/-- The port after a transfer's completion. -/
def State.portFreed (s : State) : State := s.modBus fun b => { b with current := none }

/-- Every transfer that `p` picks loses its completion: it is discarded when it arrives. -/
def Bus.disown (b : Bus) (p : Job → Bool) : Bus :=
  let mark (t : Transfer) : Transfer := if p t.job then { t with live := false } else t
  ⟨b.waiting.map mark, b.current.map mark⟩

/-- Every transfer that `p` picks is given up (R201, R218): one that waits is never made, and one in progress, which runs to
its completion, is discarded when it arrives. -/
def Bus.withdraw (b : Bus) (p : Job → Bool) : Bus := ⟨b.waiting.filter fun t => !p t.job, (b.disown p).current⟩

/-- The port after a reset: transfers waiting are dropped, one in progress runs on and is discarded; `keep` picks
those that a reset leaves alone. -/
def Bus.reset' (b : Bus) (keep : Job → Bool) : Bus :=
  ⟨b.waiting.filter fun t => t.live && keep t.job,
    b.current.map fun t => { t with live := t.live && keep t.job }⟩

/-! ## Completions (R214) -/

def Completion.isRefusal : Completion → Bool
  | .refused _ _ => true
  | .done _ _ => false

/-- A unit hands XU the completion of a slot: the shadow becomes FINISHED, a refusal is counted, and while ATTACHED
the slot's writes are issued. -/
def State.handOver (s : State) (slot : SlotIx) (c : Completion) : State :=
  let t := s.modXu fun x =>
    { x with
      shadows := x.shadows.set slot (.finished c)
      refusals := if c.isRefusal then countUp x.refusals else x.refusals }
  if s.xu.attach = .attached then t.issue (completionWrites s.xu.base slot c) else t

/-- The completion of a job with a slot, or of one that has lost it (R134, R144) or never had one (R70). -/
def State.handOver? (s : State) (slot : Option SlotIx) (c : Completion) : State :=
  match slot with
  | some i => s.handOver i c
  | none => s

def Origin.slot? : Origin → Option SlotIx
  | .slot i => some i
  | .cue _ => none

/-! ## The job that holds a slot (R134, R214) -/

/-- The player that plays a slot's announcement. -/
def Au.playing (a : Au) (slot : SlotIx) : Option Player :=
  (List.finRange 4).find? fun p =>
    decide ((a.players.get p).phase ≠ .free) && decide ((a.players.get p).origin = some (.slot slot))

/-- The job that a TAKEN shadow holds with its kind (R214): the one whose record names the slot. -/
def State.jobOf (s : State) (i : SlotIx) : Option SlotJob :=
  (s.xu.dispatch.bind fun d => if d.1 = i then some (SlotJob.dispatch d.2) else none)
    <|> (s.au.waitList.findIdx? fun e => decide (e.origin = .slot i)).map SlotJob.waiting
    <|> (s.au.playing i).map SlotJob.playing
    <|> (if s.mau.test.bind AlarmTest.origin = some i then some SlotJob.alarmTest else none)
    <|> (s.mau.loads.find? fun l => decide (l.origin = some i)).map (fun l => SlotJob.patternLoad l.id)
    <|> (if s.su.load.map ShowLoad.origin = some i then some SlotJob.showLoad else none)

/-! ## The scan pass (R212, R213) -/

/-- The first slot at or after `i` whose shadow is FREE: the others are passed over without a read. -/
def Xu.nextFree (x : Xu) (i : Nat) : Option SlotIx :=
  (List.finRange 64).find? fun k => decide (i ≤ k.val) && decide (x.shadows.get k = .free)

/-- The pass reads slot `k`, at the base and the slot's offset modulo 2^64 (assumption 26). -/
def State.readSlot (s : State) (k : SlotIx) : State :=
  (s.modXu fun x => { x with pass := some k }).issue
    [readOf (.slotRead k) (s.xu.base + slotOffset k) 64]

/-- A pass begins: it reads the first slot to be visited, or ends at once. -/
def State.beginPass (s : State) : State :=
  match s.xu.nextFree 0 with
  | some k => s.readSlot k
  | none => s.modXu fun x => { x with pass := none }

/-- The pass goes on after slot `k` has been dealt with; at its end a pending pass begins. -/
def State.passOn (s : State) (k : SlotIx) : State :=
  match s.xu.nextFree (k.val + 1) with
  | some j => s.readSlot j
  | none =>
    if s.xu.passPending then (s.modXu fun x => { x with passPending := false }).beginPass
    else s.modXu fun x => { x with pass := none }

/-- A request for a scan pass; discarded unless ATTACHED. -/
def State.requestPass (s : State) : State :=
  if s.xu.attach ≠ .attached then s
  else if s.xu.pass.isSome then s.modXu fun x => { x with passPending := true }
  else s.beginPass

/-! ## Pages (R215, R216) -/

def PageState.post (p : PageState) : PageState :=
  match p.rewrite with
  | .clean | .dirty => { p with rewrite := .dirty }
  | .writing | .writingOwed => { p with rewrite := .writingOwed }

/-- A posting of a page change. -/
def Xu.post (x : Xu) (p : StatusPage) : Xu := { x with pages := x.pages.modify p.ix PageState.post }

/-- A DIRTY page begins its rewrite while ATTACHED: the count advances by two, and the three writes are issued with
the content of this event. -/
def State.beginRewrite (s : State) (p : StatusPage) : State :=
  let g := s.xu.pages.get p.ix
  if s.xu.attach = .attached ∧ g.rewrite = .dirty then
    (s.modXu fun x => { x with pages := x.pages.set p.ix ⟨.writing, g.count + 2⟩ }).issue
      (pageWrites s.xu.base p g.count (pageBytes s p))
  else s

/-- The DIRTY pages begin their rewrites in the order of R211's table, which no rule gives (assumption 38). -/
def State.beginRewrites (s : State) : State := statusPages.foldl State.beginRewrite s

/-- What the general page reports of the show's next cue. -/
def Show.nextView (w : Show) : Option Nat := w.nextCue.map Cue.number

/-- Whether the values the general page reports differ (R136, R181, R211). A change of a holder of ALARM or of the
line status of a zone that holds ALARM counts, for the coverage counts are drawn from them. -/
def generalChanged (a b : State) : Bool :=
  decide (a.xu.mode ≠ b.xu.mode) || decide (a.xu.refusals ≠ b.xu.refusals)
    || decide (a.mau.published ≠ b.mau.published) || decide (a.mau.silenced ≠ b.mau.silenced)
    || decide (a.mau.active ≠ b.mau.active) || decide (a.mau.passA ≠ b.mau.passA)
    || decide (a.mau.passB ≠ b.mau.passB) || decide (a.mau.ignored ≠ b.mau.ignored)
    || decide (a.su.theShow.state.code ≠ b.su.theShow.state.code)
    || decide (a.su.theShow.nextView ≠ b.su.theShow.nextView)
    || decide (a.su.theShow.clock ≠ b.su.theShow.clock)
    || decide (a.su.theShow.dropped ≠ b.su.theShow.dropped)
    || (List.finRange 64).any fun z =>
        decide ((a.zm.zones.get z).holders.alarm ≠ (b.zm.zones.get z).holders.alarm)
          || ((b.zm.zones.get z).holders.alarm.isSome
            && decide ((a.zm.zones.get z).line ≠ (b.zm.zones.get z).line))

/-- What the link page reports of a port (R193). -/
def linkView (lp : Lp) (i : Fin 8) : Lock × Bool × Nat × Nat × Nat × Nat × SlotCount :=
  let r := lp.rx.get i
  (r.lock, r.pass, r.score, r.crcErrors, r.seqErrors, r.lockLosses, linkSlots lp i)

def linkChanged (a b : State) : Bool :=
  (List.finRange 8).any fun i => decide (linkView a.lp i ≠ linkView b.lp i)

/-- What the zone page reports of a zone (R19). -/
def ZoneRec.view (z : ZoneRec) : LineStatus × Holders × Bool × Nat × Nat :=
  (z.line, z.holders, z.override, z.effective, z.clips)

def zoneChanged (a b : State) : Bool :=
  (List.finRange 64).any fun z => decide ((a.zm.zones.get z).view ≠ (b.zm.zones.get z).view)

/-- What the station page reports of a station (R74, R211). -/
def stationView (c : Ic) (st : Station) : Nat × Nat × Indicator × Nat :=
  let r := c.stations.get st
  (r.standing.code, r.standing.with_, c.indicator st, r.waiting.length)

def stationChanged (a b : State) : Bool :=
  (List.finRange 64).any fun st => decide (stationView a.ic st ≠ stationView b.ic st)

/-- What the stream page reports of a channel (R181). -/
def Chan.view (c : Chan) : Nat × Nat × Nat × Nat × Nat :=
  (c.state.code, c.cursor, c.fader.current, c.starves, c.lates)

def streamChanged (a b : State) : Bool :=
  (List.finRange 16).any fun c => decide ((a.su.channels.get c).view ≠ (b.su.channels.get c).view)

def showChanged (a b : State) : Bool :=
  let v := a.su.theShow
  let w := b.su.theShow
  decide (v.state ≠ w.state) || decide (v.nextView ≠ w.nextView) || decide (v.clock ≠ w.clock)
    || decide (v.cues ≠ w.cues)

def pageChanged (a b : State) : StatusPage → Bool
  | .general => generalChanged a b
  | .link => linkChanged a b
  | .zone => zoneChanged a b
  | .station => stationChanged a b
  | .stream => streamChanged a b
  | .show => showChanged a b

/-- Whether LP raises the LINK notice: a lock state, a pass state, an announced slot count or a mismatch flag changed
(R193). -/
def linkNoticed (a b : State) : Bool :=
  (List.finRange 8).any fun i =>
    decide ((a.lp.rx.get i).lock ≠ (b.lp.rx.get i).lock) || decide ((a.lp.rx.get i).pass ≠ (b.lp.rx.get i).pass)
      || decide (linkSlots a.lp i ≠ linkSlots b.lp i)

/-- Whether MAU raises the ALARM notice: the stage, the silenced flag or the active route changed (R137). -/
def alarmNoticed (a b : State) : Bool :=
  decide (a.mau.stage ≠ b.mau.stage) || decide (a.mau.silenced ≠ b.mau.silenced)
    || decide (a.mau.active ≠ b.mau.active)

/-- The notices an event raises by what it changed. -/
def noticesRaised (a b : State) : BitVec 32 :=
  (if linkNoticed a b then noticeLink else 0) ||| (if alarmNoticed a b then noticeAlarm else 0)

/-- The pages an event changed, posted. -/
def postPages (a b : State) (x : Xu) : Xu :=
  statusPages.foldl (fun x p => if pageChanged a b p then x.post p else x) x

/-- The end of an event that took the part from `a` to `b`: what changed is posted and noticed, and every DIRTY page
begins its rewrite while ATTACHED (R193, R215, R216). -/
def publish (a b : State) : State := ((b.raise (noticesRaised a b)).modXu (postPages a b)).beginRewrites

/-- The answer of an event that is due. -/
def settle (a b : State) : Out := .next (publish a b)

/-- An event that is taken when it is due, and finds nothing to take otherwise (assumption 1). -/
def event (due : Bool) (s : State) (f : State → State) : Out := if due then settle s (f s) else .next s

/-! ## Requests (R213) -/

/-- Whether XU dispatches this request from this slot. -/
def State.dispatches (s : State) (slot : SlotIx) (r : Request) : Bool := decide (s.xu.dispatch = some (slot, r))

/-- A request decided: the dispatch is over, and the pass that took it goes on. -/
def State.dealtWith (s : State) (slot : SlotIx) : State :=
  let t := s.modXu fun x => { x with dispatch := none }
  if s.xu.pass = some slot then t.passOn slot else t

/-- A request taken by its unit: `f` is what the unit does with it. -/
def request (slot : SlotIx) (r : Request) (unitFree : Bool) (s : State) (f : State → State) : Out :=
  event (s.dispatches slot r && unitFree) s fun s => (f s).dealtWith slot

/-- A request refused. -/
def State.refuse (s : State) (slot : SlotIx) (c : RefusalCode) (detail : Nat) : State :=
  s.handOver slot (.refused c detail)

/-- A request performed at once. -/
def State.perform (s : State) (slot : SlotIx) (r : Results) : State := s.handOver slot (.done .ok r)

/-! ## Which units are free to take an event -/

/-- AU waits for ZM's answer within an examination (R53). -/
def Au.freeToAct (a : Au) : Bool := a.exam.isNone

/-- IS waits for ZM's answer within a page admission (R101). -/
def Ic.freeToAct (c : Ic) : Bool := c.awaiting.isNone

/-- MAU waits for ZM's answer to an ALARM claim (R127, R131). -/
def Mau.freeToAct (m : Mau) : Bool := m.awaiting.isNone

/-! A request follows the parts of a mode change that XU handed the same unit before it (R12, assumption 6). -/

def State.zmTakesRequest (s : State) : Bool := s.net.xuToZm.isEmpty

def State.auTakesRequest (s : State) : Bool := s.au.freeToAct && s.net.xuToAu.isEmpty

def State.icTakesRequest (s : State) : Bool := s.ic.freeToAct && s.net.xuToIs.isEmpty

def State.suTakesRequest (s : State) : Bool := s.net.xuToSu.isEmpty

end Sys2Proof.Machine
end

