-- ==== Sys2Proof/Machine/Zones.lean ====
section
/-! DEFINITION. The zone table (Chapter 1): claims and releases, target recomputation and the override bit, line status,
the zone requests, and what other units post to ZM (R33, R37, R42). -/

namespace Sys2Proof.Machine

/-! ## Recomputation (R13, R17) -/

/-- The zone with its six targets computed (R13). -/
def Zm.retargeted (m : Zm) (mode : Mode) (z : Zone) (r : ZoneRec) : ZoneRec :=
  { r with target := r.targets mode m.silenced (m.showActive z) }

/-- A target recomputation of every zone that `p` picks (R13). -/
def Zm.recompute (m : Zm) (mode : Mode) (p : Zone → Bool) : Zm :=
  { m with zones := m.zones.update fun z r => if p z then m.retargeted mode z r else r }

/-- The override bit of every zone that `p` picks derived again (R17). -/
def Zm.rederive (m : Zm) (p : Zone → Bool) : Zm :=
  { m with
    zones := m.zones.update fun z r =>
      if p z then { r with override := overrideBit r.settings.threshold r.holders } else r }

/-- Both. -/
def Zm.refresh (m : Zm) (mode : Mode) (p : Zone → Bool) : Zm := (m.recompute mode p).rederive p

/-! ## Claims and releases (R8 to R12) -/

/-- The candidate mask of a claim; CREW is read as ZM takes the claim (R4, R127). -/
def Zm.candidates (m : Zm) : Candidates → ZoneMask
  | .zones k => k
  | .crew => m.crewZones

/-- The answer to a claim (R8). -/
def Zm.admitted (m : Zm) (c : Claim) (k : ZoneMask) (manner : Manner) : ZoneMask :=
  let ok := maskOf fun z => inMask k z && (m.zones.get z).holders.admits c
  match manner with
  | .any => ok
  | .allOrNone => if ok = k then ok else 0

/-- The zones of a mask with new holder fields, their targets and override bits following (R8, R12). -/
def Zm.hold (m : Zm) (mode : Mode) (mask : ZoneMask) (f : Holders → Holders) : Zm :=
  ({ m with
    zones := m.zones.update fun z r =>
      if inMask mask z then { r with holders := f r.holders } else r }).refresh mode (inMask mask)

/-- ZM takes a claim: holders are written where it is admitted, the unit is answered, and a stage claim makes its
stage the one other units read (R8, R122). -/
def State.takeClaim (s : State) (u : Block) (c : Claim) (k : Candidates) (manner : Manner)
    (stage : Option Stage) : State :=
  let ok := s.zm.admitted c (s.zm.candidates k) manner
  let t := ((s.tookZm u).modZm fun m => m.hold s.xu.mode ok fun h => h.write c).modNet fun n =>
    n.setAnswer u (some ok)
  match stage with
  | some st => t.modMau fun m => { m with published := st }
  | none => t

/-- The zones whose field a release empties (R12). -/
def Zm.emptied (m : Zm) (c : Claim) (k : ZoneMask) : ZoneMask :=
  maskOf fun z => inMask k z && decide ((m.zones.get z).holders.release c ≠ (m.zones.get z).holders)

/-- A release notice posted to AU (R12). AU takes what it is handed in turn: behind a teardown it has not taken, the
notice waits for it (R110, R199, assumption 33). -/
def Net.postNotice (n : Net) : Net :=
  if XuPart.teardown ∈ n.xuToAu then { n with heldNotices := n.heldNotices + 1 }
  else { n with releaseNotices := n.releaseNotices + 1 }

/-- ZM takes a release; if a field was emptied AU is sent one notice (R12). -/
def State.takeRelease (s : State) (u : Block) (c : Claim) (k : ZoneMask) : State :=
  let gone := s.zm.emptied c k
  let t := (s.tookZm u).modZm fun m => m.hold s.xu.mode gone fun h => h.release c
  if gone = 0 then t else t.modNet Net.postNotice

/-- CLAIM_REQUEST: the oldest message of unit `u` is a claim (R8). -/
def execClaimRequest (u : Block) (s : State) : Out :=
  match s.net.toZm u with
  | .claim c k manner stage :: _ => settle s (s.takeClaim u c k manner stage)
  | _ => .next s

/-- RELEASE_REQUEST: the oldest message of unit `u` is a release (R12). -/
def execReleaseRequest (u : Block) (s : State) : Out :=
  match s.net.toZm u with
  | .release c k :: _ => settle s (s.takeRelease u c k)
  | _ => .next s

/-! ## Line status (R5) -/

/-- Whether a zone is one of port `p`'s. -/
def zoneOf (p : AmpPort) (z : Zone) : Bool := zonePort z = p.ix

/-- The line status of the zones of port `p` set, and the zones that changed recomputed. -/
def Zm.setLines (m : Zm) (mode : Mode) (p : AmpPort) (f : Zone → LineStatus) : Zm :=
  let changed (z : Zone) : Bool := zoneOf p z && decide ((m.zones.get z).line ≠ f z)
  ({ m with
    zones := m.zones.update fun z r => if zoneOf p z then { r with line := f z } else r }).recompute mode changed

/-- The oldest message of an amplifier port taken. -/
def State.tookAmp (s : State) (p : AmpPort) : State :=
  s.modNet fun n => { n with ampToZm := n.ampToZm.modify p.ix List.tail }

/-- Zone `z` is zone channel z mod 16 of its port (R182). -/
def zoneChannel (z : Zone) : Fin 16 := ⟨z.val % 16, by omega⟩

/-- LINE_STATUS_REPORT: a valid back-channel frame of port `p` (R5). -/
def execLineStatusReport (p : AmpPort) (s : State) : Out :=
  match s.net.ampToZm.get p.ix with
  | .report lines :: _ =>
    settle s ((s.tookAmp p).modZm fun m => m.setLines s.xu.mode p fun z => lines.get (zoneChannel z))
  | _ => .next s

/-- AMP_PASS_LOSS: port `p` lost pass, and its zones become UNKNOWN (R5). -/
def execAmpPassLoss (p : AmpPort) (s : State) : Out :=
  match s.net.ampToZm.get p.ix with
  | .passLoss :: _ => settle s ((s.tookAmp p).modZm fun m => m.setLines s.xu.mode p fun _ => .unknown)
  | _ => .next s

/-! ## Postings (R13, R33, R37, R42) -/

/-- The zones to which a channel has a nonzero crosspoint (R33). -/
def Zm.fedBy (m : Zm) (c : Stream) (z : Zone) : Bool := decide ((m.cross.get c).get z ≠ 0)

/-- A posting of SU about a channel (R33). -/
def Zm.setStream (m : Zm) (mode : Mode) (c : Stream) (f : StreamCopy → StreamCopy) : Zm :=
  let n : Zm := { m with streams := m.streams.modify c f }
  n.recompute mode (n.fedBy c)

/-- STREAM_POSTING (R33). -/
def execStreamPosting (s : State) : Out :=
  match s.net.suToZm with
  | .streamClass c k :: _ =>
    settle s ((s.tookZm .su).modZm fun m => m.setStream s.xu.mode c fun x => { x with cls := k })
  | .streamRunning c b :: _ =>
    settle s ((s.tookZm .su).modZm fun m => m.setStream s.xu.mode c fun x => { x with running := b })
  | _ => .next s

def Zm.setConv (m : Zm) (st : Station) (f : ConvCopy → ConvCopy) : Zm :=
  { m with conv := m.conv.modify st f }

/-- CONVERSATION_POSTING (R42). -/
def execConversationPosting (s : State) : Out :=
  match s.net.isToZm with
  | .standing st v :: _ =>
    settle s ((s.tookZm .is).modZm fun m => m.setConv st fun c => { c with standing := v })
  | .talking a b :: _ =>
    settle s ((s.tookZm .is).modZm fun m =>
      (m.setConv a fun c => { c with standing := .pair b }).setConv b fun c => { c with standing := .pair a })
  | .talkKey st b :: _ =>
    settle s ((s.tookZm .is).modZm fun m => m.setConv st fun c => { c with keyDown := b })
  | .listen st g :: _ =>
    settle s ((s.tookZm .is).modZm fun m => m.setConv st fun c => { c with listen := g })
  | _ => .next s

/-- PAGE_CHANNEL_POSTING (R37). -/
def execPageChannelPosting (s : State) : Out :=
  match s.net.isToZm with
  | .pageChannel c v :: _ =>
    settle s ((s.tookZm .is).modZm fun m => { m with pages := m.pages.set c v })
  | _ => .next s

/-- SILENCED_POSTING: ZM's copy of the flag, and a recomputation of every zone (R13, R122). -/
def execSilencedPosting (s : State) : Out :=
  match s.net.mauToZm with
  | .silenced b :: _ =>
    settle s ((s.tookZm .mau).modZm fun m => ({ m with silenced := b }).recompute s.xu.mode fun _ => true)
  | _ => .next s

/-- MODE_POSTING: a recomputation of every zone in the mode XU holds (R13, R196). -/
def execModePosting (s : State) : Out :=
  match s.net.xuToZm with
  | .mode :: _ => settle s ((s.tookZm .xu).modZm fun m => m.recompute s.xu.mode fun _ => true)
  | _ => .next s

/-- HELD_PERIOD_DELIVERY: the oldest period in flight of a source becomes its held period (R29). R12 orders claims,
releases and postings; a delivery may fall before or after those its unit sent later (assumption 2). -/
def execHeldPeriodDelivery (src : Source) (s : State) : Out :=
  match s.net.deliveries.find? fun d => d.1 = src with
  | some d =>
    settle s ((s.modZm fun m => { m with held := m.held.deliver src d.2 }).modNet fun n =>
      { n with deliveries := n.deliveries.eraseP fun d => decide (d.1 = src) })
  | none => .next s

/-! ## The zone requests (R22 to R24, R35) -/

/-- The settings ZONE_SET writes, each clamped (R2). -/
def settingsOf (p : ZoneSetParams) : ZoneSettings where
  flags := zoneFlags p.flags
  master := clampGain p.master.toNat
  announce := clampGain p.announce.toNat
  alarm := clampGain p.alarm.toNat
  duck := clampGain p.duck.toNat
  alarmDuck := clampGain p.alarmDuck.toNat
  nightCap := clampGain p.nightCap.toNat
  slew := clampSlew p.slew.toNat
  threshold := clampThreshold p.threshold.toNat

/-- One setting written, by its selector (R23, R209). -/
def ZoneSettings.fill (z : ZoneSettings) (sel : Nat) (v : BitVec 16) : ZoneSettings :=
  match sel with
  | 0 => { z with flags := zoneFlags (v.setWidth 8) }
  | 1 => { z with master := clampGain v.toNat }
  | 2 => { z with announce := clampGain v.toNat }
  | 3 => { z with alarm := clampGain v.toNat }
  | 4 => { z with duck := clampGain v.toNat }
  | 5 => { z with alarmDuck := clampGain v.toNat }
  | 6 => { z with nightCap := clampGain v.toNat }
  | 7 => { z with slew := clampSlew v.toNat }
  | 8 => { z with threshold := clampThreshold v.toNat }
  | _ => z

/-- The settings of the zones of a mask written, as one event (R22, R23). -/
def Zm.configure (m : Zm) (mode : Mode) (mask : Zone → Bool) (f : ZoneSettings → ZoneSettings) : Zm :=
  ({ m with
    zones := m.zones.update fun z r =>
      if mask z then { r with settings := f r.settings } else r }).refresh mode mask

/-- The crosspoints of a channel to the zones of a mask written, as one event (R35). -/
def Zm.route (m : Zm) (mode : Mode) (c : Stream) (mask : ZoneMask) (gain : Nat) : Zm :=
  ({ m with
    cross := m.cross.modify c fun row =>
      row.update fun z g => if inMask mask z then clampGain gain else g }).recompute mode (inMask mask)

/-- What ZM does with ZONE_SET (R22). -/
def takeZoneSet (slot : SlotIx) (p : ZoneSetParams) (s : State) : State :=
  match index 64 p.zone.toNat with
  | none => s.refuse slot .format 1
  | some z =>
    (s.modZm fun m => m.configure s.xu.mode (fun y => decide (y = z)) fun _ => settingsOf p).perform slot .none

/-- What ZM does with ZONE_FILL (R23). The set number is checked before the selector, an order R23 does not give
(assumption 46). -/
def takeZoneFill (slot : SlotIx) (p : ZoneFillParams) (s : State) : State :=
  match index 32 p.set.toNat with
  | none => s.refuse slot .format 1
  | some k =>
    if 8 < p.selector.toNat then s.refuse slot .format 2
    else
      let members := (s.zm.sets.get k).members
      (s.modZm fun m => m.configure s.xu.mode (inMask members) fun z =>
        z.fill p.selector.toNat p.value).perform slot (.zones (maskSize members))

/-- What ZM does with ZONESET_DEFINE (R24). -/
def takeZonesetDefine (slot : SlotIx) (p : ZonesetDefineParams) (s : State) : State :=
  match index 32 p.set.toNat with
  | none => s.refuse slot .format 1
  | some k =>
    (s.modZm fun m => { m with sets := m.sets.set k ⟨p.members, decide (p.chime ≠ 0)⟩ }).perform slot .none

/-- What ZM does with ROUTE_SET (R35). The stream number is checked before the set number, an order R35 does not give
(assumption 46). -/
def takeRouteSet (slot : SlotIx) (p : RouteSetParams) (s : State) : State :=
  match index 16 p.stream.toNat, index 32 p.set.toNat with
  | none, _ => s.refuse slot .format 1
  | some _, none => s.refuse slot .format 2
  | some c, some k =>
    let members := (s.zm.sets.get k).members
    (s.modZm fun m => m.route s.xu.mode c members p.gain.toNat).perform slot (.zones (maskSize members))

/-- ZONE_SET (R22). -/
def execZoneSet (slot : SlotIx) (p : ZoneSetParams) (s : State) : Out :=
  request slot (.zoneSet p) s.zmTakesRequest s (takeZoneSet slot p)

/-- ZONE_FILL (R23). -/
def execZoneFill (slot : SlotIx) (p : ZoneFillParams) (s : State) : Out :=
  request slot (.zoneFill p) s.zmTakesRequest s (takeZoneFill slot p)

/-- ZONESET_DEFINE (R24). -/
def execZonesetDefine (slot : SlotIx) (p : ZonesetDefineParams) (s : State) : Out :=
  request slot (.zonesetDefine p) s.zmTakesRequest s (takeZonesetDefine slot p)

/-- ROUTE_SET (R35). -/
def execRouteSet (slot : SlotIx) (p : RouteSetParams) (s : State) : Out :=
  request slot (.routeSet p) s.zmTakesRequest s (takeRouteSet slot p)

/-! ## ZM at a software reset and at its job reset (R3, R20, R29, R33, R34, R37, R42, R201) -/

/-- A zone record after a software reset: ALARM holder and line status are kept. -/
def ZoneRec.softReset (r : ZoneRec) : ZoneRec :=
  { ZoneRec.reset with holders := { Holders.empty with alarm := r.holders.alarm }, line := r.line }

/-- ZM after a software reset or its job reset, every zone recomputed; the silenced copy is kept. -/
def Zm.softReset (m : Zm) (mode : Mode) : Zm :=
  ({ Zm.reset with zones := m.zones.update fun _ r => r.softReset, silenced := m.silenced }).refresh mode
    fun _ => true

end Sys2Proof.Machine
end

