-- ==== Sys2Proof/Machine/Mix.lean ====
section
/-! DEFINITION. The mix period start (Chapter 2): slew, beds and the zone sum, earpieces, the hand-over to the ports. -/

namespace Sys2Proof.Machine

/-! ## Slew (R31, R32) -/

/-- A current moved toward its target by at most the slew step (R31). -/
def slewToward (step cur tgt : Nat) : Nat := if cur ≤ tgt then min tgt (cur + step) else max tgt (cur - step)

/-- A current of one of the four slewed classes: straight to 0 under SHORT (R32). -/
def ZoneRec.slewed (z : ZoneRec) (cur tgt : Nat) : Nat :=
  if z.line = .short ∧ tgt = 0 then 0 else slewToward z.settings.slew cur tgt

/-- The six currents after step 1 of R30. -/
def ZoneRec.moved (z : ZoneRec) : Gains where
  ev := z.target.ev
  alarm := z.target.alarm
  live := z.slewed z.current.live z.target.live
  prog := z.slewed z.current.prog z.target.prog
  show_ := z.slewed z.current.show_ z.target.show_
  bg := z.slewed z.current.bg z.target.bg

/-! ## Beds and holder samples (R36, R37) -/

def sumOver {n : Nat} (f : Fin n → Int) : Int := ((List.finRange n).map f).sum

/-- A bed sum: the RUNNING channels of a class, each through its crosspoint to the zone (R36). -/
def Zm.bed (m : Zm) (k : BedClass) (z : Zone) (i : Fin 48) : Int :=
  sumOver fun c : Stream =>
    if (m.streams.get c).running && decide ((m.streams.get c).cls = k) then
      rs ((m.held.streams.get c).supplies i) ((m.cross.get c).get z)
    else 0

/-- The sample of a page channel as a holder: its chime, or its station's microphone (R37). R37 has no row for a channel
that ZM's copy shows carrying no page while it holds a zone, between ZM's taking of the claim and of IS's posting: the
model takes 0 (assumption 37). -/
def Zm.pageSample (m : Zm) (c : Channel) (i : Fin 48) : Int :=
  match m.pages.get c with
  | none => 0
  | some ⟨_, .chime⟩ => (m.held.chimes.get c).supplies i
  | some ⟨st, .opened⟩ => (m.held.mics.get st).supplies i

/-- The term of a held class: its sample through its path, nothing if it is not held (R38). -/
def heldTerm {α : Type} (holder : Option α) (sample : α → Int) (current : Nat) : Int :=
  match holder with
  | some h => rs (sample h) current
  | none => 0

/-- The accumulator of a zone at one sample position, with the currents just moved (R38). -/
def Zm.accumulator (m : Zm) (z : Zone) (g : Gains) (i : Fin 48) : Int :=
  let h := (m.zones.get z).holders
  rs (m.bed .show z i) g.show_ + rs (m.bed .background z i) g.bg
    + heldTerm h.ev (fun c => m.pageSample c i) g.ev
    + heldTerm h.alarm (fun _ => m.held.tone.supplies i) g.alarm
    + heldTerm h.live (fun c => m.pageSample c i) g.live
    + heldTerm h.prog (fun p => (m.held.players.get p).supplies i) g.prog

/-- The 48 accumulators of a zone. -/
def Zm.accumulators (m : Zm) (z : Zone) (g : Gains) : Table 48 Int := Table.build (m.accumulator z g)

/-- The 48 output samples: each accumulator saturated once (R38). -/
def outputsOf (a : Table 48 Int) : Period := a.update fun _ x => sat24 x

/-- How many of them saturated (R39). -/
def saturations (a : Table 48 Int) : Nat := (a.toList.filter overflows24).length

/-- The largest magnitude among a period's samples (R40). -/
def peakOf (p : Period) : Nat := p.toList.foldl (fun acc y => max acc y.natAbs) 0

/-- A zone record after the mix period start: currents, clip count, peak (R31, R39, R40). -/
def Zm.mixedZone (m : Zm) (z : Zone) (r : ZoneRec) : ZoneRec :=
  let a := m.accumulators z r.moved
  { r with
    current := r.moved
    clips := satAdd Config.maxCount (saturations a) r.clips
    peak := max r.peak (peakOf (outputsOf a)) }

/-! ## Earpieces (R42 to R45) -/

/-- Whether a station is a talker of a group (R44, 1). -/
def Zm.talks (m : Zm) (g : Group) (st : Station) : Bool :=
  decide ((m.conv.get st).standing = .group g) && (m.conv.get st).keyDown

def Zm.mic (m : Zm) (st : Station) (i : Fin 48) : Int := (m.held.mics.get st).supplies i

/-- One earpiece sample of a station. -/
def Zm.earpiece (m : Zm) (k : Station) (i : Fin 48) : Int :=
  let c := m.conv.get k
  match c.standing with
  | .none => 0
  | .pair j => sat24 (rs (m.mic j i) c.listen)
  | .group g =>
    let all := sumOver fun st => if m.talks g st then m.mic st i else 0
    let own := if m.talks g k then m.mic k i else 0
    sat24 (rs (all - own) c.listen)

/-! ## The event (R30) -/

/-- ZM after the mix period start. -/
def Zm.mixed (m : Zm) : Zm := { m with zones := m.zones.update m.mixedZone, held := m.held.stale }

/-- What ZM hands the amplifier ports for a zone: samples, override bit, mute bit (R41). -/
def Zm.zoneOut (m : Zm) (z : Zone) : ZoneTx :=
  let r := m.zones.get z
  ⟨⟨outputsOf (m.accumulators z r.moved), true⟩, r.override, r.moved.mute⟩

/-- What ZM hands the station ports for a station (R45). -/
def Zm.stationOut (m : Zm) (st : Station) : Held := ⟨Table.build (m.earpiece st), true⟩

/-- LP after a hand-over: every transmit buffer replaced and fresh (R188, R191). -/
def Lp.handed (l : Lp) (m : Zm) : Lp :=
  { l with zoneTx := Table.build m.zoneOut, stationTx := Table.build m.stationOut }

/-- MIX_PERIOD_START (R30). -/
def execMixPeriodStart (s : State) : Out :=
  settle s ((s.modLp fun l => l.handed s.zm).modZm Zm.mixed)

end Sys2Proof.Machine
end

