-- ==== Sys2Proof/Machine/Tone.lean ====
section
/-! DEFINITION. Tone generators (Chapter 7): starting one, its samples, its step ends. -/

namespace Sys2Proof.Machine

/-- A step of a pattern. A place beyond the steps, which no rule reaches, is a silent period. -/
def Pattern.stepAt (p : Pattern) (i : Nat) : Step := p.steps.getD i ⟨.gap, .square, 500, 0, 1⟩

/-- The length of one pass: the sum of the durations (R143). -/
def Pattern.passLength (p : Pattern) : Nat := (p.steps.map Step.duration).sum

/-- The frequency word of a frequency in tenths of a hertz (R147). -/
def frequencyWord (f : Nat) : Nat := (f * 2 ^ 32 + 240000) / 480000

/-- The amplitude of a level (R147). -/
def amplitude (level : Nat) : Nat := (rs Config.sampleMax level).toNat

/-- A step start (R147). -/
def Gen.stepStart (store : PatternStore) (g : Gen) (i : Nat) : Gen :=
  let st := (store.get g.slot).stepAt i
  { g with
    step := i
    left := st.duration
    kind := st.kind
    wave := st.wave
    amp := if st.kind = .on then amplitude st.level else 0
    freq := if st.kind = .on then frequencyWord st.freq else 0
    phase := 0 }

/-- A generator started on a pattern slot with a regime (R146). -/
def Gen.start (store : PatternStore) (slot : PatIx) (regime : Regime) : Gen :=
  Gen.stepStart store ⟨slot, regime, 0, 0, .gap, .square, 0, 0, 0⟩ 0

/-- The alarm tone generator started: always ENDLESS (R146). -/
def Gen.alarm (store : PatternStore) (slot : PatIx) : Gen := Gen.start store slot .endless

/-- A chime generator started: one pass of slot 3, or ENDLESS at repeat count 0 (R146). -/
def Gen.chime (store : PatternStore) : Gen :=
  Gen.start store 3 (if (store.get 3).repeats = 0 then .endless else .bounded 1)

/-- A sample of a square step (R149). -/
def squareSample (amp : Nat) (phase : BitVec 32) : Int := if phase.toNat < 2 ^ 31 then amp else -(amp : Int)

/-- The triangle's value v from its phase (R150). -/
def triangleValue (phase : BitVec 32) : Int :=
  let u : Int := phase.toNat / 65536
  if u < 32768 then 2 * u - 32768 else 98303 - 2 * u

/-- A sample of a triangle step (R150). -/
def triangleSample (amp : Nat) (phase : BitVec 32) : Int := roundScale amp (triangleValue phase)

/-- The sample a generator makes at a phase (R148). -/
def Gen.sample (g : Gen) (phase : BitVec 32) : Int :=
  match g.kind, g.wave with
  | .gap, _ => 0
  | .on, .square => squareSample g.amp phase
  | .on, .triangle => triangleSample g.amp phase

/-- The phase `n` samples on. -/
def Gen.phaseAfter (g : Gen) (n : Nat) : BitVec 32 := g.phase + BitVec.ofNat 32 (n * g.freq)

/-- The 48 samples of a generator's next period (R148). -/
def Gen.samples (g : Gen) : Period := Table.build fun i => g.sample (g.phaseAfter i.val)

/-- The generator after producing a period, before any step end (R148). -/
def Gen.advanced (g : Gen) : Gen := { g with left := g.left - 1, phase := g.phaseAfter 48 }

/-- A step end: the next step, the next pass, or the generator's end (R151). -/
def Gen.stepEnd (store : PatternStore) (g : Gen) : Option Gen :=
  if g.step + 1 < (store.get g.slot).steps.length then some (g.stepStart store (g.step + 1))
  else
    match g.regime with
    | .endless => some (g.stepStart store 0)
    | .bounded n => if n ≤ 1 then none else some ({ g with regime := .bounded (n - 1) }.stepStart store 0)

/-- The generator after its owner's period start, absent if it ended there (R148, R151). -/
def Gen.next (store : PatternStore) (g : Gen) : Option Gen :=
  if g.advanced.left = 0 then g.advanced.stepEnd store else some g.advanced

/-- The generator a name stands for. -/
def State.gen (s : State) : Generator → Option Gen
  | .alarm => s.mau.gen
  | .player p => (s.au.players.get p).gen
  | .page c => (s.ic.channels.get c).bind PageRec.gen

def State.setGen (s : State) (n : Generator) (g : Option Gen) : State :=
  match n with
  | .alarm => s.modMau fun m => { m with gen := g }
  | .player p => s.modAu fun a => { a with players := a.players.modify p fun r => { r with gen := g } }
  | .page c =>
    s.modIc fun i => { i with channels := i.channels.modify c fun r => r.map fun r => { r with gen := g } }

/-- STEP_END: the end of a step whose periods left have reached 0 (R151). Period starts take it themselves. -/
def execStepEnd (n : Generator) (s : State) : Out :=
  match s.gen n with
  | some g => event (decide (g.left = 0)) s fun s => s.setGen n (g.stepEnd s.mau.store)
  | none => .next s

end Sys2Proof.Machine
end

