-- ==== Sys2Proof/Machine/Alarm.lean ====
section
/-! DEFINITION. The Muster Alarm Unit (Chapter 6) and the pattern store's loads (Chapter 7): route selection, confirmation,
the stage machine, stage entries, the alarm test, ALARM_CONFIG, PATTERN_LOAD. -/

namespace Sys2Proof.Machine

/-! ## The stage machine (R122 to R130) -/

/-- The silenced flag becomes `b`, and a change is posted to ZM (R122). -/
def State.setSilenced (s : State) (b : Bool) : State :=
  let t := s.modMau fun m => { m with silenced := b }
  if s.mau.silenced = b then t else t.sendZm .mau (.silenced b)

/-- The completion a test's slot gets, if it has one (R132, R133). -/
def State.completeTest (s : State) (o : JobOutcome) (t : AlarmTest) : State :=
  s.handOver? t.origin (.done o (.test t.mask t.run))

/-- The zones a stage claims (R127, R128). -/
def Stage.candidates : Stage → Candidates
  | .alert => .crew
  | _ => .zones allZones

/-- What MAU does once ZM has answered a stage entry's claim: at ALERT it releases a running test's other zones. -/
def Stage.await (st : Stage) (test : Option AlarmTest) : MauAwait :=
  match st, test with
  | .alert, some t => .stageRelease t.mask
  | _, _ => .stageOnly

/-- A stage entry (R123, R127, R128, R133): the tone restarts, ZM is sent the claim, AU its preemption and SU its
hold at GENERAL and ABANDON, and a running test ends PREEMPTED. -/
def State.enterStage (s : State) (st : Stage) : State :=
  let t := (((s.setSilenced false).modMau fun m =>
    { m with
      stage := st
      gen := some (Gen.alarm m.store st.pattern)
      test := none
      awaiting := some (st.await m.test) }).sendZm .mau (.claim (.alarm .stage) st.candidates .any (some st))).modNet
      fun n =>
        if st.muster then { n with preemptions := n.preemptions + 1, alarmHolds := n.alarmHolds + 1 } else n
  match s.mau.test with
  | some x => t.completeTest .preempted x
  | none => t

/-- A taken command that does nothing (R126). -/
def State.ignoreCommand (s : State) : State := s.modMau fun m => { m with ignored := countUp m.ignored }

/-- A taken ALERT, GENERAL or ABANDON (R123). -/
def State.requestStage (s : State) (st : Stage) : State :=
  if s.mau.stage.rank < st.rank then s.enterStage st else s.ignoreCommand

/-- A taken SILENCE (R124). -/
def State.takeSilence (s : State) : State :=
  if s.mau.stage ≠ .idle ∧ s.mau.silenced = false then s.setSilenced true else s.ignoreCommand

/-- A taken RESOUND (R124). -/
def State.takeResound (s : State) : State :=
  if s.mau.silenced then
    (s.setSilenced false).modMau fun m => { m with gen := some (Gen.alarm m.store m.stage.pattern) }
  else s.ignoreCommand

/-- A taken STAND_DOWN (R125). -/
def State.takeStandDown (s : State) : State :=
  if s.mau.stage = .idle then s.ignoreCommand
  else
    ((s.setSilenced false).modMau fun m => { m with stage := .idle, published := .idle, gen := none }).sendZm .mau
      (.release (.alarm .stage) allZones)

/-- What a taken command does (R114). -/
def State.doCommand (s : State) : PanelCommand → State
  | .alert => s.requestStage .alert
  | .general => s.requestStage .general
  | .abandon => s.requestStage .abandon
  | .silence => s.takeSilence
  | .resound => s.takeResound
  | .standDown => s.takeStandDown

/-! ## Confirmation (R119 to R121) -/

/-- The run after an arrival on the active route (R120). -/
def Run.arrive (r : Run) (content : Option PanelContent) (mark : Bool) : Run :=
  match content with
  | none => .restarted
  | some ⟨none, _⟩ => .restarted
  | some ⟨some c, id⟩ =>
    if mark then ⟨some (c, id), 1, false⟩
    else if r.candidate = some (c, id) then (if r.spent then r else { r with count := r.count + 1 })
    else ⟨some (c, id), 1, false⟩

/-- The command a run has confirmed and not yet taken (R121). -/
def Mau.confirmed (m : Mau) : Option PanelCommand :=
  if m.run.count = m.k ∧ m.run.spent = false then m.run.candidate.map Prod.fst else none

/-- The run marked spent (R121). -/
def Mau.spend (m : Mau) : Mau := { m with run := { m.run with spent := true } }

/-- A confirmed command is taken: the run is spent and the command acts (R121). -/
def State.takeConfirmed (s : State) (c : PanelCommand) : State := (s.modMau Mau.spend).doCommand c

/-- A command row: it acts when the run has confirmed that command. The frame arrival takes it itself. -/
def takeIfConfirmed (c : PanelCommand) (s : State) : Out :=
  event (s.mau.freeToAct && decide (s.mau.confirmed = some c)) s fun s => s.takeConfirmed c

/-- ALERT (R123). -/
def execAlert (s : State) : Out := takeIfConfirmed .alert s

/-- GENERAL (R123). -/
def execGeneral (s : State) : Out := takeIfConfirmed .general s

/-- ABANDON (R123). -/
def execAbandon (s : State) : Out := takeIfConfirmed .abandon s

/-- SILENCE (R124). -/
def execSilence (s : State) : Out := takeIfConfirmed .silence s

/-- RESOUND (R124). -/
def execResound (s : State) : Out := takeIfConfirmed .resound s

/-- STAND_DOWN (R125). -/
def execStandDown (s : State) : Out := takeIfConfirmed .standDown s

/-! ## Routes (R116 to R118) -/

/-- MAU's copy of a route's pass state. -/
def Mau.pass (m : Mau) : PanelPort → Bool
  | .pa => m.passA
  | .pb => m.passB

def Mau.setPass (m : Mau) (p : PanelPort) (b : Bool) : Mau :=
  match p with
  | .pa => { m with passA := b }
  | .pb => { m with passB := b }

/-- The active route becomes `p` (R116). -/
def Mau.switchTo (m : Mau) (p : PanelPort) : Mau := { m with active := p, run := .restarted, revert := 0 }

/-- A pass change of route `p` taken (R117). -/
def Mau.passChanged (m : Mau) (p : PanelPort) (b : Bool) : Mau :=
  let n := m.setPass p b
  if p = m.active then
    if !b && n.pass p.other then n.switchTo p.other else n
  else if b then (if n.pass m.active then n else n.switchTo p)
  else if p = .pa then { n with revert := 0 } else n

/-- The oldest message of a panel port taken. -/
def State.tookPanel (s : State) (p : PanelPort) : State :=
  s.modNet fun n => { n with panelToMau := n.panelToMau.modify p.ix List.tail }

/-- PANEL_PASS_CHANGE (R117). -/
def execPanelPassChange (p : PanelPort) (s : State) : Out :=
  match s.net.panelToMau.get p.ix with
  | .pass b :: _ => event s.mau.freeToAct s fun s => (s.tookPanel p).modMau fun m => m.passChanged p b
  | _ => .next s

/-- The revert count after an arrival on PA while PB is active (R118). -/
def Mau.countRevert (m : Mau) (content : Option PanelContent) (mark : Bool) : Mau :=
  if content.isSome && !mark then { m with revert := min m.r (m.revert + 1) } else { m with revert := 0 }

/-- An arrival on the inactive route: on PA it moves the revert count and may revert the route (R118). -/
def Mau.inactiveArrival (m : Mau) (p : PanelPort) (content : Option PanelContent) (mark : Bool) : Mau :=
  match p with
  | .pb => m
  | .pa =>
    let n := m.countRevert content mark
    if n.revert = n.r && n.passA then n.switchTo .pa else n

/-- An arrival on the active route: the run moves, and a confirmed command is taken within it (R120, R121). -/
def State.activeArrival (s : State) (content : Option PanelContent) (mark : Bool) : State :=
  let t := s.modMau fun m => { m with run := m.run.arrive content mark }
  match t.mau.confirmed with
  | some c => t.takeConfirmed c
  | none => t

/-- What MAU does with a frame arrival. -/
def State.panelArrival (s : State) (p : PanelPort) (content : Option PanelContent) (mark : Bool) : State :=
  if p = s.mau.active then s.activeArrival content mark else s.modMau fun m => m.inactiveArrival p content mark

/-- PANEL_FRAME_ARRIVAL (R118, R120). -/
def execPanelFrameArrival (p : PanelPort) (s : State) : Out :=
  match s.net.panelToMau.get p.ix with
  | .arrival content mark :: _ =>
    event s.mau.freeToAct s fun s => (s.tookPanel p).panelArrival p content mark
  | _ => .next s

/-! ## Time (R130, R132) -/

/-- The alarm tone generator's period, delivered to ZM (R130). -/
def State.tonePeriod (s : State) : State :=
  match s.mau.gen with
  | some g => (s.deliver .alarmTone g.samples).modMau fun m => { m with gen := g.next m.store }
  | none => s

/-- A test that has run its duration ends (R132). -/
def State.endTest (s : State) : State :=
  match s.mau.test with
  | some x =>
    ((s.sendZm .mau (.release (.alarm .test) x.mask)).modMau fun m => { m with test := none, gen := none }).completeTest
      .ok x
  | none => s

/-- A running test one period on. -/
def AlarmTest.aged (t : AlarmTest) : AlarmTest := { t with left := t.left - 1, run := t.run + 1 }

/-- Whether a test has run out. -/
def Mau.testOut (m : Mau) : Bool :=
  match m.test with
  | some t => t.left = 0
  | none => false

/-- MAU_PERIOD_START: the tone, then the test's count (R130, R132). -/
def execMauPeriodStart (s : State) : Out :=
  event s.mau.freeToAct s fun s =>
    let t := s.tonePeriod.modMau fun m => { m with test := m.test.map AlarmTest.aged }
    if t.mau.testOut then t.endTest else t

/-- ALARM_TEST_END: a test whose remaining duration is 0 (R132). The period start takes it itself. -/
def execAlarmTestEnd (s : State) : Out := event (s.mau.freeToAct && s.mau.testOut) s State.endTest

/-! ## ZM's answers (R127, R131) -/

/-- ZM's answer to an ALARM claim. -/
def State.mauAnswered (s : State) (a : MauAwait) (admitted : ZoneMask) : State :=
  let s := (s.modNet fun n => n.setAnswer .mau none).modMau fun m => { m with awaiting := none }
  match a with
  | .stageOnly => s
  | .stageRelease k => s.sendZm .mau (.release (.alarm .stage) (maskLess k admitted))
  | .testStart => s.modMau fun m => { m with test := m.test.map fun t => { t with mask := admitted } }

/-- CLAIM_ANSWER at MAU. -/
def mauAnswer (s : State) : Out :=
  match s.mau.awaiting, s.net.answer .mau with
  | some a, some m => settle s (s.mauAnswered a m)
  | _, _ => .next s

/-! ## Requests (R131, R135, R142) -/

/-- Whether a stage or a test is in force (R131, R135, R142). -/
def Mau.inForce (m : Mau) : Bool := decide (m.stage ≠ .idle) || m.test.isSome

/-- What MAU does with ALARM_CONFIG (R135). -/
def takeAlarmConfig (slot : SlotIx) (p : AlarmConfigParams) (s : State) : State :=
  if s.mau.inForce then s.refuse slot .state 0
  else
    (s.modMau fun m =>
      { m with
        k := clamp 2 64 p.k.toNat, r := clamp 100 10000 p.r.toNat, run := .restarted, revert := 0 }).perform slot .none

/-- ALARM_CONFIG. -/
def execAlarmConfig (slot : SlotIx) (p : AlarmConfigParams) (s : State) : Out :=
  request slot (.alarmConfig p) s.mau.freeToAct s (takeAlarmConfig slot p)

/-- A test started: its record, its claim and its tone (R130, R131). -/
def State.startTest (s : State) (slot : SlotIx) (pat : PatIx) (mask : ZoneMask) (duration : Nat) : State :=
  (s.modMau fun m =>
    { m with
      test := some ⟨some slot, pat, 0, duration, 0⟩
      gen := some (Gen.alarm m.store pat)
      awaiting := some .testStart }).sendZm .mau (.claim (.alarm .test) (.zones mask) .any none)

/-- What MAU does with ALARM_TEST (R131). -/
def takeAlarmTest (slot : SlotIx) (p : AlarmTestParams) (s : State) : State :=
  match index 4 p.pattern.toNat, index 32 p.set.toNat with
  | none, _ => s.refuse slot .format 1
  | some pat, set =>
    if 2 < pat.val then s.refuse slot .format 1
    else
      match set with
      | none => s.refuse slot .format 2
      | some k =>
        if s.mau.inForce then s.refuse slot .state 0
        else
          let members := (s.zm.sets.get k).members
          if members = 0 then s.perform slot (.test 0 0)
          else s.startTest slot pat members (clamp 1 Config.maxTest p.duration.toNat)

/-- ALARM_TEST. -/
def execAlarmTest (slot : SlotIx) (p : AlarmTestParams) (s : State) : Out :=
  request slot (.alarmTest p) s.mau.freeToAct s (takeAlarmTest slot p)

/-- Whether a player or a page channel is in CHIME (R142). -/
def State.chiming (s : State) : Bool :=
  (List.finRange 4).any (fun p => decide ((s.au.players.get p).phase = .chime))
    || (List.finRange 8).any fun c =>
      match s.ic.channels.get c with
      | some p => p.phase = .chime
      | none => false

/-- Whether a pattern slot may not be written now (R142, R143). -/
def State.patternInUse (s : State) (slot : PatIx) : Bool := if slot = 3 then s.chiming else s.mau.inForce

/-- What MAU does with PATTERN_LOAD (R142). -/
def takePatternLoad (slot : SlotIx) (p : PatternLoadParams) (s : State) : State :=
  match index 4 p.slot.toNat with
  | none => s.refuse slot .format 1
  | some k =>
    if !aligned64 p.list then s.refuse slot .align 2
    else if s.patternInUse k then s.refuse slot .state 0
    else
      (s.modMau fun m =>
        { m with
          loads := m.loads ++ [⟨m.nextLoad, some slot, k, p.list⟩], nextLoad := m.nextLoad + 1 }).issue
        [readOf (.patternList s.mau.nextLoad) p.list 272]

/-- PATTERN_LOAD. -/
def execPatternLoad (slot : SlotIx) (p : PatternLoadParams) (s : State) : Out :=
  request slot (.patternLoad p) s.mau.freeToAct s (takePatternLoad slot p)

/-! ## A pattern list read (R143) -/

/-- A step as stored: its codes read and its quantities clamped; none for an undefined code. -/
def storedStep (r : RawStep) : Option Step :=
  if 1 < r.kind ∨ 1 < r.wave then none
  else
    some
      { kind := if r.kind = 0 then .on else .gap
        wave := if r.wave = 0 then .square else .triangle
        freq := clamp 500 80000 r.freq
        level := clampGain r.level
        duration := clamp 1 10000 r.duration }

/-- The pattern of a list; none for a bad count or an undefined code among the steps in use. -/
def storedPattern (r : RawPattern) : Option Pattern :=
  if r.count = 0 ∨ 16 < r.count then none
  else ((r.steps.take r.count).mapM storedStep).map fun steps => ⟨r.repeats, steps⟩

/-- How a load finishes, its record removed. -/
def State.finishLoad (s : State) (l : PatternLoad) (r : BusRead 272) : State :=
  let s := s.modMau fun m => { m with loads := m.loads.filter fun x => decide (x.id ≠ l.id) }
  match r with
  | .busError => s.handOver? l.origin (.refused .bus 2)
  | .data b =>
    match storedPattern (decodePatternList b) with
    | none => s.handOver? l.origin (.refused .format 2)
    | some p =>
      if s.patternInUse l.slot then s.handOver? l.origin (.refused .state 0)
      else
        (s.modMau fun m => { m with store := m.store.set l.slot p }).handOver? l.origin
          (.done .ok (.pattern p.steps.length p.passLength))

/-- PATTERN_LIST_COMPLETE (R143). -/
def execPatternListComplete (r : BusRead 272) (s : State) : Out :=
  match s.inProgress with
  | some (.patternList id) =>
    event s.mau.freeToAct s fun s =>
      match s.mau.loads.find? fun l => decide (l.id = id) with
      | some l => s.portFreed.finishLoad l r
      | none => s.portFreed
  | _ => .next s

/-! ## Resets (R134, R139, R144) -/

/-- MAU at a software reset: whole, but what it runs for slots has lost them. -/
def Mau.orphaned (m : Mau) : Mau :=
  { m with
    test := m.test.map fun t => { t with origin := none }
    loads := m.loads.map fun l => { l with origin := none } }

/-- MAU after a hardware reset: the configuration and the store are kept. -/
def Mau.hardReset (m : Mau) : Mau := { Mau.reset with k := m.k, r := m.r, store := m.store }

end Sys2Proof.Machine
end

