-- ==== Sys2Proof/Machine/Announce.lean ====
section
/-! DEFINITION. The Announcement Unit (Chapter 3): ANNOUNCE and its cancel, the examination of the wait list, players and
their clip fetches, ends and stops, expiry, and the entries of show cues. -/

namespace Sys2Proof.Machine

/-! ## Taking an announcement (R48 to R51, R69) -/

/-- A clip length as stored (R48). -/
def clampClip (n : Nat) : Nat := clamp 1 Config.maxClip n

/-- An expiry as stored: absent when 0 (R48, R51). -/
def expiryOf (n : Nat) : Option Nat := if n = 0 then none else some (min n Config.maxClip)

/-- The zones the night filter removes (R49). -/
def State.filtered (s : State) (mask : ZoneMask) (urgent : Bool) : ZoneMask :=
  if s.xu.mode = .night && !urgent then s.zm.nightFiltered mask else 0

/-- An entry joins the tail of the wait list and sets an examination pending (R50, R52). -/
def Au.append (a : Au) (e : Entry) : Au := { a with waitList := a.waitList ++ [e], examPending := true }

/-- The results of an announcement that never reached a player (R64). -/
def Results.unplayed : Results := .announcement 0 0 0 0

/-- What AU does with ANNOUNCE (R48 to R50). -/
def takeAnnounce (slot : SlotIx) (p : AnnounceParams) (s : State) : State :=
  if p.mask = 0 then s.refuse slot .format 1
  else if 1 < p.policy.toNat then s.refuse slot .format 5
  else if !aligned64 p.clipAddr then s.refuse slot .align 2
  else
    let gone := s.filtered p.mask (decide (p.urgent ≠ 0))
    let target := maskLess p.mask gone
    if target = 0 then s.handOver slot (.done .filtered .unplayed)
    else if Config.waitListCap ≤ s.au.waitList.length then s.refuse slot .full 0
    else
      s.modAu fun a => a.append
        { origin := .slot slot
          target := target
          filtered := gone
          clipAddr := p.clipAddr
          clipLen := clampClip p.clipLen.toNat
          chime := decide (p.chime ≠ 0)
          policy := if p.policy = 0 then .waitAll else .partly
          expiry := expiryOf p.expiry.toNat }

/-- ANNOUNCE. -/
def execAnnounce (slot : SlotIx) (p : AnnounceParams) (s : State) : Out :=
  request slot (.announce p) s.auTakesRequest s (takeAnnounce slot p)

/-- An action not performed: SU's dropped-action count (R69, R171, R173). -/
def Su.dropAction (u : Su) : Su := { u with theShow := { u.theShow with dropped := countUp u.theShow.dropped } }

/-- A CLIP action of a show cue, built into an entry within the firing event (R69, R200). -/
def State.clipAction (s : State) (number : Nat) (addr : Addr) (len : Nat) (set : SetIx) (chime : Bool)
    (policy : Policy) (expiry : Nat) : State :=
  if s.xu.mode = .standby ∨ s.xu.mode = .service then s
  else if !aligned64 addr then s.modSu Su.dropAction
  else
    let members := (s.zm.sets.get set).members
    let gone := s.filtered members false
    let target := maskLess members gone
    if target = 0 then s
    else if Config.waitListCap ≤ s.au.waitList.length then s.modSu Su.dropAction
    else
      s.modAu fun a => a.append
        { origin := .cue number
          target := target
          filtered := gone
          clipAddr := addr
          clipLen := clampClip len
          chime := chime
          policy := policy
          expiry := expiryOf expiry }

/-! ## Players (R54 to R59) -/

def State.player (s : State) (p : Player) : PlayerRec := s.au.players.get p

def State.setPlayer (s : State) (p : Player) (r : PlayerRec) : State :=
  s.modAu fun a => { a with players := a.players.set p r }

/-- The fetch of clip period `k` (R57). -/
def PlayerRec.fetch (r : PlayerRec) (p : Player) (k : Nat) : Transfer :=
  readOf (.clip p k r.startNumber) (r.clipAddr + BitVec.ofNat 64 (192 * k)) 192

/-- A player enters CLIP and issues its first fetches (R57). -/
def State.enterClip (s : State) (p : Player) : State :=
  let r := s.player p
  let two := decide (2 ≤ r.clipLen)
  (s.setPlayer p
    { r with
      phase := .clip, gen := none, lead := true, mark0 := .requested
      mark1 := if two then .requested else .notRequested }).issue
    (if two then [r.fetch p 0, r.fetch p 1] else [r.fetch p 0])

/-- Until a player that starts first delivers, its held period at ZM is not fresh (R55): the mark its last announcement
left is cleared, and a period of that announcement still on its way is not delivered (assumption 32). -/
def State.quietPlayer (s : State) (p : Player) : State :=
  (s.modZm fun m =>
    { m with held := { m.held with players := m.held.players.modify p Held.stale } }).modNet fun n =>
      { n with deliveries := n.deliveries.filter fun d => decide (d.1 ≠ .player p) }

/-- A player starts an admitted entry (R55, R56). Its held period at ZM is quiet from this event, that of ZM's answer, and
not from ZM's writing of the holder: a mix period start between the two lets the zones claimed hear what is still fresh
of its last announcement (assumption 32). -/
def State.startPlayer (s : State) (p : Player) (e : Entry) (admitted : ZoneMask) : State :=
  let t := (s.quietPlayer p).setPlayer p
    { phase := .chime
      origin := some e.origin
      target := e.target
      filtered := e.filtered
      admitted := admitted
      interrupted := 0
      clipAddr := e.clipAddr
      clipLen := e.clipLen
      cursor := 0
      lead := false
      mark0 := .notRequested
      mark1 := .notRequested
      played := 0
      late := 0
      startNumber := (s.player p).startNumber + 1
      gen := if e.chime then some (Gen.chime s.mau.store) else none }
  if e.chime then t else t.enterClip p

/-- The zones an announcement was heard in (R61). -/
def PlayerRec.heard (r : PlayerRec) : ZoneMask := maskLess r.admitted r.interrupted

/-- The results of an announcement that played (R64). -/
def PlayerRec.results (r : PlayerRec) : Results := .announcement r.admitted r.heard r.played r.late

/-- A player that becomes FREE: its generator stops (R62, R63). What else its record holds stands until it next starts,
its interrupted mask among it (R61). -/
def PlayerRec.freed (r : PlayerRec) : PlayerRec := { r with phase := .free, gen := none }

/-- A player releases its zones, becomes FREE, completes its slot and sets an examination pending (R62, R63). -/
def State.endPlayer (s : State) (p : Player) (o : JobOutcome) : State :=
  let r := s.player p
  (((s.sendZm .au (.release (.programmed p) r.admitted)).setPlayer p r.freed).handOver?
    (r.origin.bind Origin.slot?) (.done o r.results)).modAu fun a => { a with examPending := true }

/-- The outcome of a clip that ran to its end (R62). -/
def PlayerRec.endOutcome (r : PlayerRec) : JobOutcome :=
  if r.heard = r.target ∧ r.filtered = 0 then .played else .partly

/-- Clip end (R62). -/
def State.clipEnded (s : State) (p : Player) : State := s.endPlayer p (s.player p).endOutcome

/-- A player stopped early, if it plays (R63). -/
def State.stopPlayer (s : State) (o : JobOutcome) (p : Player) : State :=
  if (s.player p).phase = .free then s else s.endPlayer p o

def State.stopPlayers (s : State) (o : JobOutcome) : State := (List.finRange 4).foldl (fun s p => s.stopPlayer o p) s

/-- The held-back zones of a player join its interrupted mask (R61). -/
def State.readHeldBack (s : State) (p : Player) : State :=
  let r := s.player p
  let held := maskOf fun z => inMask r.admitted z && (s.zm.zones.get z).heldBack s.xu.mode
  s.setPlayer p { r with interrupted := r.interrupted ||| held }

/-- A chime period (R56): it is delivered, and at the generator's end the player enters CLIP. -/
def State.chimePeriod (s : State) (p : Player) (g : Gen) : State :=
  let t := s.deliver (.player p) g.samples
  match g.next s.mau.store with
  | some g' => t.setPlayer p { t.player p with gen := some g' }
  | none => t.enterClip p

/-- The samples of a complete fetch mark. -/
def FetchMark.samples? : FetchMark → Option Period
  | .complete p => some p
  | _ => none

/-- A due clip period delivered or declared late, and the next fetch (R59). -/
def State.clipPeriod (s : State) (p : Player) : State :=
  let r := s.player p
  let more := decide (r.cursor + 2 < r.clipLen)
  let r' : PlayerRec :=
    { r with
      cursor := r.cursor + 1, mark0 := r.mark1, mark1 := if more then .requested else .notRequested
      played := if r.mark0.samples?.isSome then r.played + 1 else r.played
      late := if r.mark0.samples?.isSome then r.late else countUp r.late }
  let t := (match r.mark0.samples? with
    | some x => s.deliver (.player p) x
    | none => s).setPlayer p r'
  let t := if more then t.issue [r.fetch p (r.cursor + 2)] else t
  if r.clipLen ≤ r'.cursor then t.clipEnded p else t

/-- What a player does at an AU period start (R56, R59, R61). -/
def State.playerPeriod (s : State) (p : Player) : State :=
  if (s.player p).phase = .free then s
  else
    let s := s.readHeldBack p
    let r := s.player p
    match r.phase, r.gen with
    | .chime, some g => s.chimePeriod p g
    | .clip, _ =>
      if r.lead then s.setPlayer p { r with lead := false }
      else if r.cursor < r.clipLen then s.clipPeriod p else s
    | _, _ => s

/-! ## Expiry (R67) -/

/-- The remaining expiry of an entry after a period start. -/
def Entry.aged (e : Entry) : Entry := { e with expiry := e.expiry.map fun n => n - 1 }

def Entry.expired (e : Entry) : Bool := decide (e.expiry = some 0)

/-- A removed entry completes if its origin is a slot (R63, R65, R67, R70). -/
def State.dropEntry (s : State) (o : JobOutcome) (e : Entry) : State :=
  s.handOver? e.origin.slot? (.done o .unplayed)

/-- The entries that have run out leave the list, in list order (R67). -/
def State.expireEntries (s : State) : State :=
  let out := s.au.waitList.filter Entry.expired
  out.foldl (fun s e => s.dropEntry .expired e)
    (s.modAu fun a => { a with waitList := a.waitList.filter fun e => !e.expired })

/-- AU_PERIOD_START: the players in order, then expiry (R59, R61, R67). -/
def execAuPeriodStart (s : State) : Out :=
  event s.au.freeToAct s fun s =>
    (((List.finRange 4).foldl State.playerPeriod s).modAu fun a =>
      { a with waitList := a.waitList.map Entry.aged }).expireEntries

/-- ENTRY_EXPIRY: entries whose remaining expiry is 0 (R67). The period start takes it itself. -/
def execEntryExpiry (s : State) : Out :=
  event (s.au.freeToAct && s.au.waitList.any Entry.expired) s State.expireEntries

/-- CLIP_END: a player in CLIP whose cursor has reached the clip length (R62). The period start takes it itself. -/
def execClipEnd (p : Player) (s : State) : Out :=
  event (s.au.freeToAct && decide ((s.player p).phase = .clip) && decide ((s.player p).clipLen ≤ (s.player p).cursor))
    s fun s => s.clipEnded p

/-- PLAYER_CHIME_END: a player in CHIME whose generator has ended (R56, R151). The period start takes it itself. -/
def execPlayerChimeEnd (p : Player) (s : State) : Out :=
  event (s.au.freeToAct && decide ((s.player p).phase = .chime) && (s.player p).gen.isNone) s fun s => s.enterClip p

/-! ## The eligibility examination (R52, R53) -/

/-- RELEASE_NOTICE: a notice of ZM sets an examination pending (R12, R52). -/
def execReleaseNotice (s : State) : Out :=
  event (decide (0 < s.net.releaseNotices)) s fun s =>
    (s.modNet fun n => { n with releaseNotices := n.releaseNotices - 1 }).modAu fun a => { a with examPending := true }

/-- The lowest-numbered FREE player (R53). -/
def Au.freePlayer (a : Au) : Option Player :=
  (List.finRange 4).find? fun p => decide ((a.players.get p).phase = .free)

def Policy.manner : Policy → Manner
  | .waitAll => .allOrNone
  | .partly => .any

/-- The examination goes on at place `i` of the list: it claims for the entry there, or ends (R53). The list is read as it
stands at the visit, so that an entry a CLIP action appends while an answer is awaited is visited as well
(assumption 47). -/
def State.visit (s : State) (i : Nat) : State :=
  match s.au.freePlayer, s.au.waitList[i]? with
  | some p, some e =>
    (s.sendZm .au (.claim (.programmed p) (.zones e.target) e.policy.manner none)).modAu fun a =>
      { a with exam := some ⟨i, p⟩ }
  | _, _ => s.modAu fun a => { a with exam := none }

/-- ELIGIBILITY_EXAMINATION: a pending examination begins at the head (R53). -/
def execEligibilityExamination (s : State) : Out :=
  event (s.au.freeToAct && s.au.examPending) s fun s =>
    (s.modAu fun a => { a with examPending := false }).visit 0

/-- ZM's answer within an examination: the entry starts or keeps its place, and the next is visited (R53, R55). -/
def State.examAnswer (s : State) (x : Exam) (admitted : ZoneMask) : State :=
  let s := s.modNet fun n => n.setAnswer .au none
  match s.au.waitList[x.index]? with
  | some e =>
    if admitted = 0 then s.visit (x.index + 1)
    else
      ((s.modAu fun a => { a with waitList := a.waitList.eraseIdx x.index }).startPlayer x.player e
        admitted).visit x.index
  | none => s.visit x.index

/-- CLAIM_ANSWER at AU. -/
def auAnswer (s : State) : Out :=
  match s.au.exam, s.net.answer .au with
  | some x, some m => settle s (s.examAnswer x m)
  | _, _ => .next s

/-! ## Fetches (R58, R60) -/

/-- A fetched period put into the mark of its place, clamped (R26, R58). -/
def PlayerRec.store (r : PlayerRec) (k : Nat) (x : Period) : PlayerRec :=
  if k = r.cursor then { r with mark0 := .complete x }
  else if k = r.cursor + 1 then { r with mark1 := .complete x }
  else r

/-- A clip fetch's completion at AU (R58, R60). -/
def State.clipFetched (s : State) (p : Player) (k start : Nat) (r : BusRead 192) : State :=
  let rec' := s.player p
  if rec'.startNumber ≠ start ∨ rec'.phase = .free then s
  else
    match r with
    | .busError => s.stopPlayer .aborted p
    | .data b => if k < rec'.cursor then s else s.setPlayer p (rec'.store k (clampWords (decodeWords b)))

/-- CLIP_FETCH_COMPLETE. -/
def execClipFetchComplete (r : BusRead 192) (s : State) : Out :=
  match s.inProgress with
  | some (.clip p k start) => event s.au.freeToAct s fun s => s.portFreed.clipFetched p k start r
  | _ => .next s

/-! ## Cancel (R65) -/

/-- What AU does with ANNOUNCE_CANCEL. -/
def takeAnnounceCancel (slot : SlotIx) (p : AnnounceCancelParams) (s : State) : State :=
  match index 64 p.slot.toNat with
  | none => s.refuse slot .format 1
  | some k =>
    match s.au.waitList.find? fun e => decide (e.origin = .slot k) with
    | some e =>
      ((s.modAu fun a => { a with waitList := a.waitList.eraseP fun e => decide (e.origin = .slot k) }).dropEntry
        .cancelled e).perform slot .none
    | none =>
      match s.au.playing k with
      | some q => (s.stopPlayer .cancelled q).perform slot .none
      | none => s.refuse slot .noTarget 1

/-- ANNOUNCE_CANCEL. -/
def execAnnounceCancel (slot : SlotIx) (p : AnnounceCancelParams) (s : State) : Out :=
  request slot (.announceCancel p) s.auTakesRequest s (takeAnnounceCancel slot p)

/-! ## Preemption, teardown, job reset (R63, R68, R128, R201) -/

/-- Whether a stage's ALARM claim still waits for ZM: what follows it waits too (R129). -/
def Net.stageClaimWaits (n : Net) : Bool :=
  n.mauToZm.any fun m =>
    match m with
    | .claim (.alarm .stage) _ _ _ => true
    | _ => false

/-- PREEMPTION: every player in CHIME or CLIP stops PREEMPTED (R63, R128). -/
def execPreemption (s : State) : Out :=
  event (s.au.freeToAct && decide (0 < s.net.preemptions) && !s.net.stageClaimWaits) s fun s =>
    (s.modNet fun n => { n with preemptions := n.preemptions - 1 }).stopPlayers .preempted

/-- AU's part of a teardown (R63, R199): the players, then the wait list from its head. -/
def State.auTornDown (s : State) : State :=
  let t := s.stopPlayers .aborted
  t.au.waitList.foldl (fun s e => s.dropEntry .aborted e) (t.modAu fun a => { a with waitList := [] })

/-- AU has taken a teardown, `q` standing behind it: the release notices posted behind it reach AU, unless a further
teardown is before them (R110, R199, assumption 33). -/
def Net.auTookTeardown (n : Net) (q : List XuPart) : Net :=
  if XuPart.teardown ∈ q then { n with xuToAu := q }
  else { n with xuToAu := q, releaseNotices := n.releaseNotices + n.heldNotices, heldNotices := 0 }

/-- AU_TEARDOWN. -/
def execAuTeardown (s : State) : Out :=
  match s.net.xuToAu with
  | .teardown :: q => event s.au.freeToAct s fun s => (s.modNet fun n => n.auTookTeardown q).auTornDown
  | _ => .next s

/-- AU after its job reset: as after a software reset, each player keeping its start number (R201). -/
def Au.jobReset (a : Au) : Au :=
  { Au.reset with players := a.players.update fun _ r => { PlayerRec.reset with startNumber := r.startNumber } }

end Sys2Proof.Machine
end

