-- ==== Sys2Proof/Machine/Exchange.lean ====
section
/-! DEFINITION. The Exchange Unit (Chapter 11): registers, attach and detach, the scan pass, completions and rewrites as
their writes complete, the meter page, the bus-master port. Software reset stands in Resets.lean. -/

namespace Sys2Proof.Machine

/-! ## Registers (R204, R205) -/

/-- NOTICE_READ: the host is given the bits that are set, and they are cleared. -/
def execNoticeRead (s : State) : Out := settle s (s.modXu fun x => { x with readData := x.notice, notice := 0 })

def Xu.enable (x : Xu) (v : BitVec 32) : Xu := { x with noticeEnable := v &&& noticeBits }

/-- NOTICE_ENABLE_WRITE. -/
def execNoticeEnableWrite (v : BitVec 32) (s : State) : Out := settle s (s.modXu fun x => x.enable v)

/-- A write of AREA_LO or AREA_HI: stored while DETACHED; bits 0 to 11 of AREA_LO read 0. -/
def Xu.writeAreaLo (x : Xu) (v : BitVec 32) : Xu :=
  if x.attach = .detached then { x with areaLo := v &&& 0xFFFFF000 } else x

def Xu.writeAreaHi (x : Xu) (v : BitVec 32) : Xu := if x.attach = .detached then { x with areaHi := v } else x

/-! ## Attach and detach (R206, R207) -/

/-- A write of ATTACH = 1. -/
def State.attach (s : State) : State :=
  if s.xu.attach = .detached then
    (s.modXu fun x => { x with attach := .attaching }).issue [readOf .header s.xu.base 256]
  else s

/-- ATTACH. -/
def execAttach (s : State) : Out := settle s s.attach

/-- A rewrite in progress abandoned (R207, R216). The rules name no rewrite state for the page: the model has it DIRTY, as
it stays until the rewrite of the next attach (assumption 39). -/
def PageState.abandoned (p : PageState) : PageState :=
  match p.rewrite with
  | .writing | .writingOwed => { p with rewrite := .dirty }
  | .clean | .dirty => p

/-- XU after a detach. -/
def Xu.detached (x : Xu) : Xu :=
  { x with
    attach := .detached, pass := none, passPending := false, meterWriting := false
    pages := x.pages.update fun _ p => p.abandoned }

/-- The area is left: the completions of area traffic outstanding are discarded when they arrive (R207). -/
def State.leaveArea (s : State) : State := (s.modXu Xu.detached).modBus fun b => b.disown Job.area

/-- A write of ATTACH = 0. -/
def State.detach (s : State) : State := if s.xu.attach = .detached then s else s.leaveArea

/-- DETACH. -/
def execDetach (s : State) : Out := settle s s.detach

/-- SCAN: a write of SCAN = 1 (R212). -/
def execScan (s : State) : Out := settle s s.requestPass

/-- The scan interval and the meter interval as kept (R206). -/
def clampScan (n : Nat) : Nat := clamp 1 16 n

def clampMeter (n : Nat) : Nat := if n = 0 then 0 else clamp 10 1000 n

/-- The completion writes of every FINISHED shadow (R206, R214), in rising slot order, which no rule gives
(assumption 40). -/
def Xu.finishedWrites (x : Xu) : List Transfer :=
  (List.finRange 64).flatMap fun i =>
    match x.shadows.get i with
    | .finished c => completionWrites x.base i c
    | .free | .taken _ => []

/-- A successful attach (R206): every page marked, every completion written, both counts from 0. -/
def State.attachSuccess (s : State) (h : AreaHeader) : State :=
  (s.modXu fun x =>
    { x with
      attach := .attached, scanInterval := clampScan h.scan, meterInterval := clampMeter h.meter
      scanCount := 0, meterCount := 0
      pages := x.pages.update fun _ p => { p with rewrite := .dirty } }).issue s.xu.finishedWrites

/-- An attach that fails (R206). -/
def State.attachFails (s : State) : State :=
  (s.modXu fun x => { x with attach := .detached }).raise noticeAreaFault

/-- Whether a header is that of an area (R206). -/
def headerGood (h : AreaHeader) : Bool :=
  decide (h.signature = Config.signature) && decide (h.version = Config.layoutVersion)

/-- The completion of the header read decides the attach (R206). -/
def State.headerRead (s : State) (r : BusRead 256) : State :=
  match r with
  | .busError => s.attachFails
  | .data b => if headerGood (decodeHeader b) then s.attachSuccess (decodeHeader b) else s.attachFails

/-- HEADER_READ_COMPLETE. -/
def execHeaderReadComplete (r : BusRead 256) (s : State) : Out :=
  match s.inProgress with
  | some .header => settle s (s.portFreed.headerRead r)
  | _ => .next s

/-! ## Time (R212, R217) -/

/-- A scan interval expiry (R212). -/
def State.scanExpiry (s : State) : State := (s.modXu fun x => { x with scanCount := 0 }).requestPass

/-- SCAN_INTERVAL_EXPIRY. -/
def execScanIntervalExpiry (s : State) : Out := event (decide (s.xu.attach = .attached)) s State.scanExpiry

/-- A meter rewrite (R217): the peaks are taken and cleared, and the page is written. -/
def State.meterRewrite (s : State) : State :=
  ((s.modXu fun x => { x with meterPage := x.meterPage + 2, meterWriting := true }).modZm fun m =>
    { m with zones := m.zones.update fun _ r => { r with peak := 0 } }).issue
    (meterWrites s.xu.base s.xu.meterPage (meterBytes s.zm))

/-- A meter interval expiry (R217): nothing happens while a meter rewrite is in progress. -/
def State.meterExpiry (s : State) : State :=
  let t := s.modXu fun x => { x with meterCount := 0 }
  if s.xu.meterWriting then t else t.meterRewrite

/-- METER_INTERVAL_EXPIRY. -/
def execMeterIntervalExpiry (s : State) : Out :=
  event (decide (s.xu.attach = .attached) && decide (s.xu.meterInterval ≠ 0)) s State.meterExpiry

/-- XU's count toward a scan interval expiry at a period start. -/
def State.scanTick (s : State) : State :=
  let t := s.modXu fun x => { x with scanCount := x.scanCount + 1 }
  if s.xu.scanInterval ≤ t.xu.scanCount then t.scanExpiry else t

/-- XU's count toward a meter interval expiry at a period start. -/
def State.meterTick (s : State) : State :=
  if s.xu.meterInterval = 0 then s
  else
    let t := s.modXu fun x => { x with meterCount := x.meterCount + 1 }
    if s.xu.meterInterval ≤ t.xu.meterCount then t.meterExpiry else t

/-- XU's own period start, which no row of the table names (R1, R212, R217): the expiries that fall at it are taken,
the scan interval's first, an order no rule gives (assumption 5). -/
def xuPeriodStart (s : State) : Out :=
  event (decide (s.xu.attach = .attached)) s fun s => s.scanTick.meterTick

/-! ## The scan pass (R213) -/

/-- A POSTED slot taken: the shadow, the TAKEN write (its address modulo 2^64, assumption 26), the kind and the mode, and the
dispatch. -/
def State.takeSlot (s : State) (k : SlotIx) (b : Table 64 Byte) : State :=
  let t := (s.modXu fun x => { x with shadows := x.shadows.set k (.taken (fieldBits b 1 1)) }).issue
    [writeOf (.taken k) (s.xu.base + slotOffset k) [slotTaken]]
  match decodeRequest b with
  | none => (t.refuse k .format 0).passOn k
  | some r =>
    if acceptedIn r s.xu.mode then t.modXu fun x => { x with dispatch := some (k, r) }
    else (t.refuse k .mode 0).passOn k

/-- The completion of a scan read (R213). -/
def State.slotRead (s : State) (k : SlotIx) (b : Table 64 Byte) : State :=
  if slotIsPosted b then s.takeSlot k b else s.passOn k

/-- SLOT_READ_COMPLETE. -/
def execSlotReadComplete (b : Table 64 Byte) (s : State) : Out :=
  match s.inProgress with
  | some (.slotRead k) => event s.xu.dispatch.isNone s fun s => s.portFreed.slotRead k b
  | _ => .next s

/-! ## Writes that end something (R214, R216, R217) -/

/-- STATE_WRITE_COMPLETE: the shadow becomes FREE and FINISHED is set (R214). -/
def execStateWriteComplete (s : State) : Out :=
  match s.inProgress with
  | some (.state k) =>
    settle s ((s.portFreed.modXu fun x => { x with shadows := x.shadows.set k .free }).raise noticeFinished)
  | _ => .next s

/-- A page at the end of its rewrite: DIRTY if a change was owed, CLEAN otherwise (R216). -/
def PageState.written (p : PageState) : PageState :=
  match p.rewrite with
  | .writingOwed => { p with rewrite := .dirty }
  | .writing | .clean | .dirty => { p with rewrite := .clean }

/-- REWRITE_END: PAGES is set, and a further rewrite begins if one is owed (R216). -/
def execRewriteEnd (s : State) : Out :=
  match s.inProgress with
  | some (.pageClose p) =>
    settle s ((s.portFreed.modXu fun x => { x with pages := x.pages.modify p.ix PageState.written }).raise noticePages)
  | _ => .next s

/-- METER_REWRITE_END (R217). -/
def execMeterRewriteEnd (s : State) : Out :=
  match s.inProgress with
  | some .meterClose => settle s (s.portFreed.modXu fun x => { x with meterWriting := false })
  | _ => .next s

/-- AREA_BUS_ERROR: a bus error on a slot read, a slot write or a page write (R207). -/
def execAreaBusError (s : State) : Out :=
  match s.inProgress with
  | some j => event j.areaError s fun s => s.portFreed.leaveArea.raise noticeAreaFault
  | none => .next s

/-! ## The arbiter (R218) -/

/-- The transfer the arbiter grants: the oldest of the first class that waits. -/
def nextGrant (q : List Transfer) : Option Transfer :=
  (List.range 6).findSome? fun k => q.find? fun t => decide (t.job.rank = k)

/-- The others, in their order. -/
def lessGrant (q : List Transfer) (t : Transfer) : List Transfer :=
  q.eraseP fun u => decide (u.job.rank = t.job.rank)

/-- Whether the port can take a grant: it is free, or its transfer's completion is no event at any unit. -/
def Bus.ready (b : Bus) : Bool :=
  match b.current with
  | none => true
  | some t => !t.live || t.job.quiet

/-- The port after a grant. -/
def Bus.granted (b : Bus) : Bus :=
  match nextGrant b.waiting with
  | some t => ⟨lessGrant b.waiting t, some t⟩
  | none => { b with current := none }

/-- BUS_GRANT. -/
def execBusGrant (s : State) : Out := event s.bus.ready s fun s => s.modBus Bus.granted

end Sys2Proof.Machine
end

