-- ==== Sys2Proof/Machine/Intercom.lean ====
section
/-! DEFINITION. The Intercom Switch (Chapters 4 and 5): station events, calls, waiting lists and serving, party lines, pages
and their channels, offline cascades, timers, the intercom requests. -/

namespace Sys2Proof.Machine

/-! ## Stations -/

def State.station (s : State) (st : Station) : StationRec := s.ic.stations.get st

def State.modStation (s : State) (st : Station) (f : StationRec → StationRec) : State :=
  s.modIc fun c => { c with stations := c.stations.modify st f }

/-- A station's state becomes `v`; ZM is sent its new standing in the conversation structure if that changed (R92). -/
def State.setStanding (s : State) (st : Station) (v : Standing) : State :=
  let t := s.modStation st fun r => { r with standing := v }
  if (s.station st).standing.conv = v.conv then t else t.sendZm .is (.standing st v.conv)

/-- A station stays or becomes IDLE with a notice, serving nothing yet (R74). -/
def State.setIdle (s : State) (n : IdleNotice) (st : Station) : State := s.setStanding st (.idle n)

/-- An event of an IDLE station denied (R74). -/
def State.deny (s : State) (st : Station) : State := s.setIdle .busyDenied st

/-- Station `w` rings station `b` (R80, R86). -/
def State.ring (s : State) (w b : Station) : State :=
  (s.setStanding w (.calling b)).setStanding b (.ringing w s.ic.ringTimeout)

/-- Two stations enter TALKING together, and one posting tells ZM of both (R81, R82, R92, R97). -/
def State.connect (s : State) (a b : Station) : State :=
  ((s.modStation a fun r => { r with standing := .talking b }).modStation b fun r =>
    { r with standing := .talking a }).sendZm .is (.talking a b)

/-- An IDLE station with callers calls the oldest waiter (R86). -/
def State.serve (s : State) (st : Station) : State :=
  match (s.station st).waiting with
  | w :: rest => (s.modStation st fun r => { r with waiting := rest }).ring w st
  | [] => s

/-- A station leaves its owner's waiting list (R85). -/
def State.unqueue (s : State) (w owner : Station) : State :=
  s.modStation owner fun r => { r with waiting := r.waiting.filter fun x => decide (x ≠ w) }

/-! ## Pages (R99, R108 to R110) -/

/-- The claim of a page (R7). -/
def pageClaim (k : PageClass) (c : Channel) : Claim :=
  match k with
  | .live => .live c
  | .ev => .ev c

/-- A page's class is released over its admitted mask and its channel becomes free (R108, 1 and 2). -/
def State.releasePage (s : State) (c : Channel) : State :=
  match s.ic.channels.get c with
  | some p =>
    ((s.sendZm .is (.release (pageClaim p.cls c) p.admitted)).modIc fun i =>
      { i with channels := i.channels.set c none }).sendZm .is (.pageChannel c none)
  | none => s

/-- A page ends and its station enters IDLE and serves its list (R108). -/
def State.endPage (s : State) (c : Channel) (st : Station) : State :=
  ((s.releasePage c).setIdle .quiet st).serve st

/-! ## CLEAR and CALL_RELEASE (R83, R89, R98, R108) -/

/-- Two parties of a call enter IDLE, then each serves its list (R83, R84). ZM is sent the standing of `a`, whose event it is,
before that of `b`, an order R92 does not give (assumption 45). -/
def State.partCall (s : State) (a b : Station) (nb : IdleNotice) : State :=
  (((s.setIdle .quiet a).setIdle nb b).serve a).serve b

/-- What a CLEAR taken from a station does in its present state. -/
def State.clearStation (s : State) (st : Station) : State :=
  match (s.station st).standing with
  | .calling p => s.partCall st p .quiet
  | .ringing p _ => s.partCall st p .noAnswer
  | .talking p => s.partCall st p .quiet
  | .waiting o _ => ((s.unqueue st o).setIdle .quiet st).serve st
  | .group _ => (s.setIdle .quiet st).serve st
  | .paging c => s.endPage c st
  | .offline | .idle _ => s

/-! ## Station events (R75, R76) -/

/-- The oldest message of a station port taken. -/
def State.tookStation (s : State) (p : StationPort) : State :=
  s.modNet fun n => { n with stationToIs := n.stationToIs.modify p.ix List.tail }

/-- The taking of a station event: the counter is stored and any notice goes (R74, R75). Of a PAGE this is done when it is
taken, so that its station shows QUIET until ZM answers its claim; R101 decides the PAGE within one event and does not say
what shows meanwhile (the model's choice, assumption 44). -/
def StationRec.took (r : StationRec) (counter : BitVec 4) : StationRec :=
  { r with
    counter := some counter
    standing := if r.standing.isIdle then .idle .quiet else r.standing }

/-- The control word of a station, if it is the oldest message of its port. -/
def State.wordOf (s : State) (st : Station) : Option ControlWord :=
  match s.net.stationToIs.get (stationPort st).ix with
  | .word st' w :: _ => if st' = st then some w else none
  | _ => none

/-- A control word that `fits` an event of a station: discarded if the station is OFFLINE or its counter repeats,
the reference word's business if no counter has been taken, and else taken with what `act` does (R75, R76). -/
def stationEvent (st : Station) (fits : ControlWord → Bool) (s : State) (act : State → State) : Out :=
  match s.wordOf st with
  | some w =>
    if fits w && s.ic.freeToAct then
      let t := s.tookStation (stationPort st)
      if !(s.station st).standing.online then settle s t
      else
        match (s.station st).counter with
        | none => .next s
        | some c =>
          if c = w.counter then settle s t
          else settle s (act (t.modStation st fun r => r.took w.counter))
    else .next s
  | none => .next s

/-- REFERENCE_WORD: the first control word of a station that has come online gives its counter (R75). -/
def execReferenceWord (st : Station) (s : State) : Out :=
  match s.wordOf st with
  | some w =>
    event (s.ic.freeToAct && (s.station st).standing.online && (s.station st).counter.isNone) s fun s =>
      (s.tookStation (stationPort st)).modStation st fun r => { r with counter := some w.counter }
  | none => .next s

/-- Whether the mode denies calls, party lines and LIVE pages (R93, R101). -/
def Mode.denies (m : Mode) : Bool := decide (m = .standby) || decide (m = .service)

/-- A CALL of an IDLE station (R80, R93). -/
def State.placeCall (s : State) (a : Station) (target : Nat) : State :=
  if s.xu.mode.denies then s.deny a
  else
    match index 64 target with
    | none => s.deny a
    | some b =>
      if b = a then s.deny a
      else
        match (s.station b).standing with
        | .offline => s.deny a
        | .idle _ => s.ring a b
        | _ =>
          if Config.waitingCap ≤ (s.station b).waiting.length then s.deny a
          else
            (s.modStation b fun r => { r with waiting := r.waiting ++ [a] }).setStanding a
              (.waiting b s.ic.waitTimeout)

/-- What a CALL does (R76, R80, R81). -/
def State.takeCall (s : State) (a : Station) (target : Nat) : State :=
  match (s.station a).standing with
  | .idle _ => s.placeCall a target
  | .ringing b _ => if target = b.val then s.connect a b else s
  | _ => s

/-- CALL. -/
def execCall (st : Station) (target : BitVec 8) (s : State) : Out :=
  stationEvent st (fun w => w.event = 1 && w.arg = target) s fun s => s.takeCall st target.toNat

/-- What an ANSWER does (R82). -/
def State.takeAnswer (s : State) (b : Station) : State :=
  match (s.station b).standing with
  | .ringing a _ => s.connect b a
  | _ => s

/-- ANSWER. -/
def execAnswer (st : Station) (s : State) : Out :=
  stationEvent st (fun w => w.event = 2) s fun s => s.takeAnswer st

/-- CLEAR (R83, R89, R108). -/
def execClear (st : Station) (s : State) : Out :=
  stationEvent st (fun w => w.event = 3) s fun s => s.clearStation st

/-- What a GROUP_JOIN does (R88, R93). -/
def State.joinGroup (s : State) (st : Station) (group : Nat) : State :=
  if !(s.station st).standing.isIdle then s
  else if s.xu.mode.denies then s.deny st
  else
    match index 8 group with
    | some g => if (s.station st).groups.getLsbD g.val then s.setStanding st (.group g) else s.deny st
    | none => s.deny st

/-- GROUP_JOIN. -/
def execGroupJoin (st : Station) (group : BitVec 8) (s : State) : Out :=
  stationEvent st (fun w => w.event = 4 && w.arg = group) s fun s => s.joinGroup st group.toNat

/-- The class of a page (R100): EV for an emergency page of a BRIDGE station while the stage is not IDLE. -/
def pageClass (emergency : Bool) (a : Authority) (stage : Stage) : PageClass :=
  if emergency && decide (a = .bridge) && decide (stage ≠ .idle) then .ev else .live

/-- Whether a page is denied before its set is looked at (R101, 1). -/
def pageDenied (k : PageClass) (a : Authority) (m : Mode) : Bool :=
  decide (k = .live) && (m.denies || decide (a = .crew))

/-- The lowest-numbered free page channel (R101). -/
def Ic.freeChannel (c : Ic) : Option Channel := (List.finRange 8).find? fun i => (c.channels.get i).isNone

/-- What a PAGE does up to its claim (R100, R101). Its station, whose notice is gone, stays IDLE, showing QUIET, until ZM
answers (assumption 44). -/
def State.takePage (s : State) (st : Station) (set : Nat) (emergency : Bool) : State :=
  let r := s.station st
  let k := pageClass emergency r.authority s.mau.published
  if !r.standing.isIdle then s
  else if pageDenied k r.authority s.xu.mode then s.deny st
  else
    match index 32 set, s.ic.freeChannel with
    | some z, some c =>
      (s.sendZm .is (.claim (pageClaim k c) (.zones (s.zm.sets.get z).members) .any none)).modIc fun i =>
        { i with awaiting := some ⟨st, k, z, c, (s.zm.sets.get z).chime⟩ }
    | _, _ => s.deny st

/-- PAGE: a station's PAGE event with its zone-set argument and emergency flag (R195). -/
def execPage (st : Station) (set : BitVec 7) (emergency : Bool) (s : State) : Out :=
  stationEvent st (fun w => w.event = 5 && w.arg = BitVec.ofBool emergency ++ set) s fun s =>
    s.takePage st set.toNat emergency

/-- A page admitted on its channel (R102). Its first phase follows the chime flag read at the PAGE (assumption 28). -/
def State.admitPage (s : State) (w : PageWait) (admitted : ZoneMask) : State :=
  let phase : PagePhase := if w.chime then .chime else .opened
  let p : PageRec :=
    { station := w.station
      cls := w.cls
      set := w.set
      admitted := admitted
      phase := phase
      left := s.ic.pageLimit
      gen := if w.chime then some (Gen.chime s.mau.store) else none }
  ((s.modIc fun i => { i with channels := i.channels.set w.channel (some p) }).setStanding w.station
    (.paging w.channel)).sendZm .is (.pageChannel w.channel (some ⟨w.station, phase⟩))

/-- ZM's answer to a page's claim: admission, or denial, at which BUSY_DENIED is set (R101, 5 and 6; assumption 44). -/
def State.pageAnswer (s : State) (w : PageWait) (admitted : ZoneMask) : State :=
  let s := (s.modNet fun n => n.setAnswer .is none).modIc fun i => { i with awaiting := none }
  if admitted = 0 then s.deny w.station else s.admitPage w admitted

/-- CLAIM_ANSWER at IS. -/
def icAnswer (s : State) : Out :=
  match s.ic.awaiting, s.net.answer .is with
  | some w, some m => settle s (s.pageAnswer w m)
  | _, _ => .next s

/-- The talk key set and posted (R79). -/
def State.setKey (s : State) (st : Station) (down : Bool) : State :=
  (s.modStation st fun r => { r with keyDown := down }).sendZm .is (.talkKey st down)

/-- TALK_DOWN. -/
def execTalkDown (st : Station) (s : State) : Out :=
  stationEvent st (fun w => w.event = 6) s fun s => s.setKey st true

/-- TALK_UP. -/
def execTalkUp (st : Station) (s : State) : Out :=
  stationEvent st (fun w => w.event = 7) s fun s => s.setKey st false

/-- UNDEFINED_STATION_EVENT: an event of no kind is taken and does nothing more (R76). -/
def execUndefinedStationEvent (st : Station) (code : BitVec 4) (s : State) : Out :=
  stationEvent st (fun w => w.event = code && (code = 0 || 8 ≤ code.toNat)) s fun s => s

/-! ## Timers (R84, R87, R105) -/

/-- A running timer of a station one period on. -/
def Standing.aged : Standing → Standing
  | .ringing p n => .ringing p (n - 1)
  | .waiting o n => .waiting o (n - 1)
  | v => v

def Ic.aged (c : Ic) : Ic :=
  { c with
    stations := c.stations.update fun _ r => { r with standing := r.standing.aged }
    channels := c.channels.update fun _ p => p.map fun p => { p with left := p.left - 1 } }

/-- The expiry of a ring timer (R84). -/
def State.ringExpired (s : State) (b : Station) : State :=
  match (s.station b).standing with
  | .ringing a _ => s.partCall b a .noAnswer
  | _ => s

/-- The expiry of a wait timer (R87). -/
def State.waitExpired (s : State) (w : Station) : State :=
  match (s.station w).standing with
  | .waiting o _ => ((s.unqueue w o).setIdle .noAnswer w).serve w
  | _ => s

/-- Whether the page limit of a channel has run out. -/
def Ic.limitOut (c : Ic) (ch : Channel) : Bool :=
  match c.channels.get ch with
  | some p => p.left = 0
  | none => false

/-- The expiry of a page limit (R105, R108). -/
def State.pageExpired (s : State) (ch : Channel) : State :=
  match s.ic.channels.get ch with
  | some p => s.endPage ch p.station
  | none => s

/-- Whatever timer of a station stands at 0 expires. -/
def State.expireAt (s : State) (st : Station) : State :=
  match (s.station st).standing with
  | .ringing _ 0 => s.ringExpired st
  | .waiting _ 0 => s.waitExpired st
  | .paging c => if s.ic.limitOut c then s.pageExpired c else s
  | _ => s

/-- The chime of a channel ends: its phase becomes OPEN (R103). -/
def State.openPage (s : State) (c : Channel) : State :=
  match s.ic.channels.get c with
  | some p =>
    (s.modIc fun i => { i with channels := i.channels.set c (some { p with phase := .opened, gen := none }) }).sendZm
      .is (.pageChannel c (some ⟨p.station, .opened⟩))
  | none => s

/-- A chime period of a channel (R103). -/
def State.pageChimePeriod (s : State) (c : Channel) : State :=
  match s.ic.channels.get c with
  | some p =>
    match p.phase, p.gen with
    | .chime, some g =>
      let t := s.deliver (.pageChime c) g.samples
      match g.next s.mau.store with
      | some g' => t.modIc fun i => { i with channels := i.channels.set c (some { p with gen := some g' }) }
      | none => t.openPage c
    | _, _ => s
  | none => s

/-- IS_PERIOD_START: every timer, then the expiries, those of `first` before the rest in station order, then the
chimes, in rising channel number (R84, R87, R103, R105; assumption 43). The order of expiries that fall together is the
command's: R111 leaves it open (assumption 15). -/
def execIsPeriodStart (first : List Station) (s : State) : Out :=
  event s.ic.freeToAct s fun s =>
    let t := (first ++ List.finRange 64).foldl State.expireAt (s.modIc Ic.aged)
    (List.finRange 8).foldl State.pageChimePeriod t

/-- RING_TIMEOUT: a ring timer that stands at 0 (R84). The period start takes it itself. -/
def execRingTimeout (st : Station) (s : State) : Out :=
  match (s.station st).standing with
  | .ringing _ 0 => event s.ic.freeToAct s fun s => s.ringExpired st
  | _ => .next s

/-- WAIT_TIMEOUT: a wait timer that stands at 0 (R87). The period start takes it itself. -/
def execWaitTimeout (st : Station) (s : State) : Out :=
  match (s.station st).standing with
  | .waiting _ 0 => event s.ic.freeToAct s fun s => s.waitExpired st
  | _ => .next s

/-- PAGE_LIMIT_EXPIRY: a page limit that stands at 0 (R105). The period start takes it itself. -/
def execPageLimitExpiry (c : Channel) (s : State) : Out :=
  event (s.ic.freeToAct && s.ic.limitOut c) s fun s => s.pageExpired c

/-- Whether a channel is in CHIME with its generator ended. -/
def Ic.chimeOver (i : Ic) (c : Channel) : Bool :=
  match i.channels.get c with
  | some p => decide (p.phase = .chime) && p.gen.isNone
  | none => false

/-- PAGE_CHIME_END: a channel in CHIME whose generator has ended (R103). The period start takes it itself. -/
def execPageChimeEnd (c : Channel) (s : State) : Out :=
  event (s.ic.freeToAct && s.ic.chimeOver c) s fun s => s.openPage c

/-! ## Online and OFFLINE (R77, R78, R91) -/

/-- Whether a port's pass state and slot count reach a station (R77). -/
def PortCopy.reaches (p : PortCopy) (st : Station) : Bool := p.pass && decide (stationSlot st < p.count)

/-- A station comes online (R78). -/
def StationRec.comeOnline (r : StationRec) : StationRec :=
  { r with standing := .idle .quiet, keyDown := false, waiting := [], counter := none }

def State.comeOnline (s : State) (st : Station) : State := s.modStation st StationRec.comeOnline

/-- A state with the stations marked to enter IDLE (R91). -/
structure Cascade where
  state : State
  marks : List (Station × IdleNotice)

/-- What losing station `x` marks its partner with (R91, 1). -/
def Standing.partnerMark : Standing → List (Station × IdleNotice)
  | .calling p => [(p, .quiet)]
  | .ringing p _ => [(p, .noAnswer)]
  | .talking p => [(p, .quiet)]
  | _ => []

/-- Steps 2 and 5 of R91: the list a station stands on, and the page it speaks through. -/
def State.leaveConversation (s : State) (x : Station) : State :=
  match (s.station x).standing with
  | .waiting o _ => s.unqueue x o
  | .paging c => s.releasePage c
  | _ => s

/-- Step 6 of R91. ZM is sent the talk key before the standing, an order R91 and R92 do not give (assumption 45). -/
def State.enterOffline (s : State) (x : Station) : State :=
  let t := if (s.station x).keyDown then s.setKey x false else s
  (t.setStanding x .offline).modStation x fun r => { r with waiting := [], counter := none }

/-- The first phase of R91 for one station. -/
def Cascade.lose (leaving : Station → Bool) (k : Cascade) (x : Station) : Cascade :=
  let r := k.state.station x
  let marks := (r.standing.partnerMark ++ r.waiting.map fun w => (w, IdleNotice.noAnswer)).filter fun m =>
    !leaving m.1
  ⟨(k.state.leaveConversation x).enterOffline x, k.marks ++ marks⟩

/-- The second phase of R91. Its stations are taken in the order of their marks: of the stations lost, and of one such
its partner before its waiters. R91 orders the first phase alone, and R92 no postings (assumption 45). -/
def Cascade.finish (k : Cascade) : State :=
  let t := k.marks.foldl (fun s m => s.setIdle m.2 m.1) k.state
  k.marks.foldl (fun s m => s.serve m.1) t

/-- Stations of a list go OFFLINE in one event (R91). -/
def State.loseStations (s : State) (xs : List Station) : State :=
  (xs.foldl (Cascade.lose fun x => xs.contains x) ⟨s, []⟩).finish

/-- The stations of a port. -/
def StationPort.stations (p : StationPort) : List Station :=
  (List.finRange 64).filter fun st => decide ((stationPort st).ix = p.ix)

/-- IS takes a port's pass state and slot count (R77). -/
def State.takeCondition (s : State) (p : StationPort) (pass : Bool) (count : Nat) : State :=
  let port : PortCopy := ⟨pass, count⟩
  let online (st : Station) : Bool := (s.station st).standing.online
  let all := StationPort.stations p
  let t := (s.modIc fun c => { c with ports := c.ports.set p.ix port }).loseStations
    (all.filter fun st => online st && !port.reaches st)
  (all.filter fun st => !online st && port.reaches st).foldl State.comeOnline t

/-- PORT_CONDITION. -/
def execPortCondition (p : StationPort) (s : State) : Out :=
  match s.net.stationToIs.get p.ix with
  | .condition pass count :: _ =>
    event s.ic.freeToAct s fun s => (s.tookStation p).takeCondition p pass count
  | _ => .next s

/-! ## Teardown and resets (R78, R94, R110, R201) -/

/-- IS's part of a teardown: pages in channel order (R110), then every station not OFFLINE (R94), in rising number
(assumption 43). -/
def State.icTornDown (s : State) : State :=
  let t := (List.finRange 8).foldl State.releasePage s
  (List.finRange 64).foldl
    (fun s st =>
      if (s.station st).standing.online then
        (s.modStation st fun r => { r with waiting := [] }).setIdle .quiet st
      else s) t

/-- IS_TEARDOWN. -/
def execIsTeardown (s : State) : Out :=
  match s.net.xuToIs with
  | .teardown :: q => event s.ic.freeToAct s fun s => (s.modNet fun n => { n with xuToIs := q }).icTornDown
  | _ => .next s

/-- What LP holds of a station port (R78). -/
def Lp.portCopy (l : Lp) (i : Fin 2) : PortCopy :=
  ⟨(l.rx.get ⟨i.val, by omega⟩).pass, (l.slots.get i).count⟩

/-- IS after a software reset: its defaults, and every station the ports reach IDLE (R71, R72, R78). -/
def Ic.softReset (l : Lp) : Ic :=
  { Ic.reset with
    ports := Table.build l.portCopy
    stations := Table.build fun st =>
      if (l.portCopy (stationPort st).ix).reaches st then StationRec.reset.comeOnline else .reset }

/-- The postings by which ZM learns what the job reset changed of a station (R42, R92): standing, talk key, listen gain, an
order no rule gives (assumption 45). -/
def resetPostings (old new : StationRec) (st : Station) : List ZmMsg :=
  (if old.standing.conv = new.standing.conv then [] else [ZmMsg.standing st new.standing.conv])
    ++ (if old.keyDown = new.keyDown then [] else [ZmMsg.talkKey st new.keyDown])
    ++ (if old.listen = new.listen then [] else [ZmMsg.listen st new.listen])

/-- IS at its job reset: pages still in use end as at a teardown, then the state of a software reset (R201), what it
changed posted station by station (assumptions 29, 43 and 45). What the station ports handed IS before it, and IS has not
taken, is taken after it (assumption 42). -/
def State.icJobReset (s : State) : State :=
  let t := (List.finRange 8).foldl State.releasePage s
  let c := Ic.softReset s.lp
  let posts := (List.finRange 64).flatMap fun st => resetPostings (t.station st) (c.stations.get st) st
  (t.modIc fun _ => c).modNet fun n => { n with isToZm := n.isToZm ++ posts }

/-! ## The intercom requests (R95 to R98) -/

def authorityOf (c : Nat) : Option Authority :=
  if c = 0 then some .crew else if c = 1 then some .officer else if c = 2 then some .bridge else none

/-- The settings of a station stored and its listen gain posted; a station whose active group is gone leaves its
party line (R90, R95). ZM is sent the listen gain before the standing, an order R92 does not give (assumption 45). -/
def State.setStation (s : State) (st : Station) (a : Authority) (groups : BitVec 8) (listen : Nat) : State :=
  let t := (s.modStation st fun r => { r with authority := a, groups := groups, listen := listen }).sendZm .is
    (.listen st listen)
  match (s.station st).standing with
  | .group g => if groups.getLsbD g.val then t else (t.setIdle .quiet st).serve st
  | _ => t

/-- What IS does with STATION_SET (R95). The station number is checked before the authority, an order R95 does not give
(assumption 46). -/
def takeStationSet (slot : SlotIx) (p : StationSetParams) (s : State) : State :=
  match index 64 p.station.toNat, authorityOf p.authority.toNat with
  | none, _ => s.refuse slot .format 1
  | some _, none => s.refuse slot .format 2
  | some st, some a =>
    (s.setStation st a (p.groups.setWidth 8) (clampGain p.listen.toNat)).perform slot .none

/-- STATION_SET. -/
def execStationSet (slot : SlotIx) (p : StationSetParams) (s : State) : Out :=
  request slot (.stationSet p) s.icTakesRequest s (takeStationSet slot p)

/-- What IS does with INTERCOM_CONFIG (R96). -/
def takeIntercomConfig (slot : SlotIx) (p : IntercomConfigParams) (s : State) : State :=
  (s.modIc fun c =>
    { c with
      ringTimeout := clamp 1000 120000 p.ring.toNat
      waitTimeout := clamp 1000 300000 p.wait.toNat
      pageLimit := clamp 1000 600000 p.page.toNat }).perform slot .none

/-- INTERCOM_CONFIG. -/
def execIntercomConfig (slot : SlotIx) (p : IntercomConfigParams) (s : State) : Out :=
  request slot (.intercomConfig p) s.icTakesRequest s (takeIntercomConfig slot p)

/-- What IS does with CALL_CONNECT (R97). -/
def takeCallConnect (slot : SlotIx) (p : CallConnectParams) (s : State) : State :=
  match index 64 p.a.toNat, index 64 p.b.toNat with
  | none, _ => s.refuse slot .format 1
  | some _, none => s.refuse slot .format 2
  | some a, some b =>
    if b = a then s.refuse slot .format 2
    else if !(s.station a).standing.isIdle then s.refuse slot .state 1
    else if !(s.station b).standing.isIdle then s.refuse slot .state 2
    else (s.connect a b).perform slot .none

/-- CALL_CONNECT. -/
def execCallConnect (slot : SlotIx) (p : CallConnectParams) (s : State) : Out :=
  request slot (.callConnect p) s.icTakesRequest s (takeCallConnect slot p)

/-- What IS does with CALL_RELEASE (R98). -/
def takeCallRelease (slot : SlotIx) (p : CallReleaseParams) (s : State) : State :=
  match index 64 p.station.toNat with
  | none => s.refuse slot .format 1
  | some a =>
    if (s.station a).standing.online && !(s.station a).standing.isIdle then (s.clearStation a).perform slot .none
    else s.refuse slot .state 1

/-- CALL_RELEASE. -/
def execCallRelease (slot : SlotIx) (p : CallReleaseParams) (s : State) : Out :=
  request slot (.callRelease p) s.icTakesRequest s (takeCallRelease slot p)

end Sys2Proof.Machine
end

