-- ==== Sys2Proof/Machine/Wire.lean ====
section
/-! DEFINITION. The link frames of R195 bit by bit, in the order sent: the frames the part sends, and what a port finds on its
line at a receive frame time (R182). Fields are sent most significant bit first, samples as 24-bit two's complement. -/

namespace Sys2Proof.Machine

/-! ## Sync words -/

def syncStationIn : BitVec 16 := 0xE4A7
def syncStationOut : BitVec 16 := 0xE4B8
def syncPanelIn : BitVec 16 := 0xD31C
def syncPanelOut : BitVec 16 := 0xD32D
def syncAmpOut : BitVec 16 := 0xA95E
def syncAmpIn : BitVec 16 := 0xA96F

/-! ## What the part sends (R188, R190, R191) -/

/-- The audio section of a frame: the samples of its slots or zones in order. -/
def audioBits {n : Nat} (a : Table n Period) : List Bool :=
  a.toList.flatMap fun p => p.toList.flatMap fun x => bitsOf (BitVec.ofInt 24 x)

/-- An outgoing station frame. -/
def stationOut (sequence : BitVec 4) (indicators : Table 32 (BitVec 4)) (audio : Table 32 Period) : List Bool :=
  let covered := bitsOf sequence ++ bitsOf (0 : BitVec 4) ++ indicators.toList.flatMap bitsOf
  bitsOf syncStationOut ++ covered ++ bitsOf (crc16 covered) ++ audioBits audio

/-- An outgoing panel frame. -/
def panelOut (sequence : BitVec 4) (stage : Stage) (silenced active : Bool) : List Bool :=
  let covered := bitsOf sequence ++ bitsOf (BitVec.ofNat 2 stage.rank) ++ [silenced, active]
  bitsOf syncPanelOut ++ covered ++ bitsOf (crc8 covered)

/-- An outgoing amplifier frame, each zone's override bit before its mute bit. -/
def ampOut (sequence : BitVec 4) (zones : Table 16 (Bool × Bool)) (audio : Table 16 Period) : List Bool :=
  let covered := bitsOf sequence ++ bitsOf (0 : BitVec 4) ++ zones.toList.flatMap fun b => [b.1, b.2]
  bitsOf syncAmpOut ++ covered ++ bitsOf (crc16 covered) ++ audioBits audio

/-! ## What the part expects

The fields marked 0 stand in the frame as received, for the check covers them; nothing else reads them. -/

/-- An incoming station frame. -/
def stationFrameBits (f : StationFrame) : List Bool :=
  bitsOf syncStationIn ++ stationCheckBits f ++ bitsOf f.crc
    ++ f.audio.toList.flatMap fun p => p.toList.flatMap bitsOf

/-- An incoming panel frame. -/
def panelFrameBits (f : PanelFrame) : List Bool := bitsOf syncPanelIn ++ panelCheckBits f ++ bitsOf f.crc

/-- An incoming back-channel frame. -/
def backFrameBits (f : BackFrame) : List Bool := bitsOf syncAmpIn ++ backCheckBits f ++ bitsOf f.crc

/-! ## Reading the line -/

/-- The field of `n` bits that begins at bit `off` of a frame. -/
def bitField (b : List Bool) (off n : Nat) : BitVec n :=
  BitVec.ofNat n (((b.drop off).take n).foldl (fun k x => 2 * k + x.toNat) 0)

def readStationFrame (b : List Bool) : StationFrame where
  sequence := bitField b 16 4
  slotCount := bitField b 20 6
  reserved := bitField b 26 6
  words := Table.build fun k =>
    ⟨bitField b (32 + 16 * k.val) 4, bitField b (36 + 16 * k.val) 8, bitField b (44 + 16 * k.val) 4⟩
  crc := bitField b 544 16
  audio := Table.build fun k => Table.build fun i => bitField b (560 + 1152 * k.val + 24 * i.val) 24

def readPanelFrame (b : List Bool) : PanelFrame :=
  ⟨bitField b 16 4, bitField b 20 4, bitField b 24 8, bitField b 32 8⟩

def readBackFrame (b : List Bool) : BackFrame where
  sequence := bitField b 16 4
  reserved := bitField b 20 4
  lines := Table.build fun k => bitField b (24 + 2 * k.val) 2
  crc := bitField b 56 16

/-- The command that what stands on the line of a port is at a receive frame time: a frame where a good sync word is
found, a missing frame where none is (R182). -/
def stationArrival (p : StationPort) (b : List Bool) : Instr :=
  if bitField b 0 16 = syncStationIn then .stationFrame p (readStationFrame b) else .frameMissing p.port

def panelArrival (p : PanelPort) (b : List Bool) : Instr :=
  if bitField b 0 16 = syncPanelIn then .panelFrame p (readPanelFrame b) else .frameMissing p.port

def backArrival (p : AmpPort) (b : List Bool) : Instr :=
  if bitField b 0 16 = syncAmpIn then .backChannelFrame p (readBackFrame b) else .frameMissing p.port

end Sys2Proof.Machine
end

