-- ==== Sys2Proof/Machine/Links.lean ====
section
/-! DEFINITION. Link Ports (Chapter 9): lock, sequence tracking, score and pass, what each received frame hands on, what
each port sends. -/

namespace Sys2Proof.Machine

/-! ## The receive side (R183 to R186) -/

/-- The pass state evaluated (R186). -/
def Rx.evaluated (r : Rx) : Rx :=
  { r with
    pass :=
      if r.lock ≠ .locked ∨ Config.failScore ≤ r.score then false
      else if r.score ≤ Config.passScore then true
      else r.pass }

/-- Entry into LOCKED, and departure from it: the sequence tracking is cleared and pass evaluated (R183). -/
def Rx.relock (r : Rx) (l : Lock) : Rx := { r with lock := l, expected := none }.evaluated

/-- A departure from LOCKED. -/
def Rx.unlock (r : Rx) (l : Lock) : Rx := { r with lockLosses := countUp r.lockLosses }.relock l

/-- Signal present (R183). -/
def Rx.signalPresent (r : Rx) : Rx :=
  match r.lock with
  | .down => { r with signal := true, lock := .acquire, acquired := 0 }
  | .acquire | .locked => { r with signal := true }

/-- Signal lost (R183). -/
def Rx.signalLost (r : Rx) : Rx :=
  match r.lock with
  | .down => { r with signal := false }
  | .acquire => { r with signal := false, lock := .down }
  | .locked => { r with signal := false }.unlock .down

/-- A missing frame (R183). -/
def Rx.frameMissing (r : Rx) : Rx :=
  match r.lock with
  | .down => r
  | .acquire => { r with acquired := 0 }
  | .locked =>
    if 3 ≤ r.missed + 1 then { r with missed := 3, acquired := 0 }.unlock .acquire
    else { r with missed := r.missed + 1 }

/-- A frame received in ACQUIRE: the fourth completes the lock (R183). -/
def Rx.acquire (r : Rx) : Rx :=
  if 4 ≤ r.acquired + 1 then { r with acquired := 4, missed := 0 }.relock .locked
  else { r with acquired := r.acquired + 1 }

/-- Whether a frame taken in LOCKED bears the sequence mark (R184). -/
def Rx.marks (r : Rx) (good : Bool) (sequence : BitVec 4) : Bool :=
  good &&
    match r.expected with
    | some e => e ≠ sequence
    | none => false

/-- The expected sequence after a frame taken in LOCKED (R184). -/
def Rx.expects (r : Rx) (good : Bool) (sequence : BitVec 4) : Option (BitVec 4) :=
  if good then some (sequence + 1) else r.expected.map fun e => e + 1

/-- The error score and counters after a frame taken in LOCKED (R185). -/
def Rx.scored (r : Rx) (good mark : Bool) : Rx :=
  if good && !mark then { r with score := r.score - 1 }
  else
    { r with
      score := satAdd Config.maxScore Config.faultScore r.score
      crcErrors := if good then r.crcErrors else countUp r.crcErrors
      seqErrors := if good then countUp r.seqErrors else r.seqErrors }

/-- A frame taken in LOCKED (R183 to R186). -/
def Rx.taken (r : Rx) (good : Bool) (sequence : BitVec 4) : Rx :=
  ({ r with missed := 0, expected := r.expects good sequence }.scored good (r.marks good sequence)).evaluated

/-- A received frame: it acquires, or it is taken; on a DOWN port no frame is received. -/
def Rx.received (r : Rx) (good : Bool) (sequence : BitVec 4) : Rx :=
  match r.lock with
  | .down => r
  | .acquire => r.acquire
  | .locked => r.taken good sequence

/-! ## Handing on (R187, R189, R192) -/

def State.rx (s : State) (p : Port) : Rx := s.lp.rx.get p.ix

def State.setRx (s : State) (p : Port) (r : Rx) : State := s.modLp fun l => { l with rx := l.rx.set p.ix r }

def State.toIs (s : State) (p : StationPort) (ms : List IsMsg) : State :=
  s.modNet fun n => { n with stationToIs := n.stationToIs.modify p.ix fun q => q ++ ms }

def State.toMau (s : State) (p : PanelPort) (ms : List MauMsg) : State :=
  s.modNet fun n => { n with panelToMau := n.panelToMau.modify p.ix fun q => q ++ ms }

def State.toAmp (s : State) (p : AmpPort) (ms : List AmpMsg) : State :=
  s.modNet fun n => { n with ampToZm := n.ampToZm.modify p.ix fun q => q ++ ms }

/-- The condition event of a station port: its pass state and its held count (R187, R77). -/
def State.condition (s : State) (p : StationPort) : State :=
  s.toIs p [.condition (s.rx p.port).pass (s.lp.slots.get p.ix).count]

/-- A change of pass state handed to the port's user (R186). -/
def State.passTold (s : State) (old : Bool) : Port → State
  | .s0 => if (s.rx .s0).pass = old then s else s.condition .s0
  | .s1 => if (s.rx .s1).pass = old then s else s.condition .s1
  | .pa => if (s.rx .pa).pass = old then s else s.toMau .pa [.pass (s.rx .pa).pass]
  | .pb => if (s.rx .pb).pass = old then s else s.toMau .pb [.pass (s.rx .pb).pass]
  | .m0 => if old && !(s.rx .m0).pass then s.toAmp .m0 [.passLoss] else s
  | .m1 => if old && !(s.rx .m1).pass then s.toAmp .m1 [.passLoss] else s
  | .m2 => if old && !(s.rx .m2).pass then s.toAmp .m2 [.passLoss] else s
  | .m3 => if old && !(s.rx .m3).pass then s.toAmp .m3 [.passLoss] else s

/-- An event of the receive side that hands on nothing but a change of pass state. -/
def State.receive (s : State) (p : Port) (f : Rx → Rx) : State :=
  (s.setRx p (f (s.rx p))).passTold (s.rx p).pass p

/-- SIGNAL_PRESENT (R183). -/
def execSignalPresent (p : Port) (s : State) : Out := settle s (s.receive p Rx.signalPresent)

/-- SIGNAL_LOST (R183). -/
def execSignalLost (p : Port) (s : State) : Out := settle s (s.receive p Rx.signalLost)

/-- FRAME_MISSING: a receive frame time without a sync word (R183). -/
def execFrameMissing (p : Port) (s : State) : Out := settle s (s.receive p Rx.frameMissing)

/-! ### Station ports (R187) -/

/-- The slot count a frame announces, at most 32. -/
def frameCount (f : StationFrame) : Nat := min 32 f.slotCount.toNat

/-- The held count after an accepted frame. -/
def SlotCount.announce (c : SlotCount) (n : Nat) : SlotCount := if n = c.count then c else ⟨n, decide (n ≠ 32)⟩

/-- The slots below a count. -/
def slotsBelow (n : Nat) : List (Fin 32) := (List.finRange 32).filter fun k => decide (k.val < n)

/-- The samples of a slot, each a 24-bit two's-complement value. -/
def frameSamples (f : StationFrame) (k : Fin 32) : Period := (f.audio.get k).update fun _ x => x.toInt

/-- A frame taken in LOCKED on a station port: score and pass, slot count, condition, control words, audio. The control
words of one frame reach IS in rising slot order, which no rule gives (assumption 36). -/
def State.takeStationFrame (s : State) (p : StationPort) (f : StationFrame) : State :=
  let good := stationCheckGood f
  let old := s.rx p.port
  let held := s.lp.slots.get p.ix
  let new := old.taken good f.sequence
  let count := if good then held.announce (frameCount f) else held
  let t := (s.setRx p.port new).modLp fun l => { l with slots := l.slots.set p.ix count }
  let t := if new.pass = old.pass ∧ count.count = held.count then t else t.condition p
  let slots := slotsBelow count.count
  let t := if good then t.toIs p (slots.map fun k => .word (p.station k) (f.words.get k)) else t
  t.modNet fun n => { n with deliveries := n.deliveries ++ slots.map fun k => (.mic (p.station k), frameSamples f k) }

/-- STATION_FRAME: a frame received on a station port; in ACQUIRE it serves the lock alone (R183, R187). -/
def execStationFrame (p : StationPort) (f : StationFrame) (s : State) : Out :=
  match (s.rx p.port).lock with
  | .down => .next s
  | .acquire => settle s (s.receive p.port Rx.acquire)
  | .locked => settle s (s.takeStationFrame p f)

/-! ### Panel ports (R189) -/

/-- What a panel frame taken in LOCKED carries; nothing if it is invalid (R115, R189). -/
def panelContent (f : PanelFrame) : Option PanelContent :=
  if panelCheckGood f && panelCodeDefined f.command then some ⟨panelCommand f.command, f.identity⟩ else none

/-- PANEL_FRAME: a frame received on a panel port; its arrival follows any change of pass it causes (R186, R189). -/
def execPanelFrame (p : PanelPort) (f : PanelFrame) (s : State) : Out :=
  let r := s.rx p.port
  match r.lock with
  | .down => .next s
  | .acquire => settle s ((s.receive p.port Rx.acquire).toMau p [.arrival none false])
  | .locked =>
    let good := panelCheckGood f
    settle s ((s.receive p.port fun r => r.taken good f.sequence).toMau p
      [.arrival (panelContent f) (r.marks good f.sequence)])

/-! ### Amplifier ports (R192) -/

/-- The sixteen line statuses of a frame. -/
def frameStatuses (f : BackFrame) : Table 16 LineStatus := f.lines.update fun _ c => lineOfCode c

/-- BACK_CHANNEL_FRAME: an accepted frame of a port that passes after it is a valid back-channel frame (R192). -/
def execBackChannelFrame (p : AmpPort) (f : BackFrame) (s : State) : Out :=
  match (s.rx p.port).lock with
  | .down => .next s
  | .acquire => settle s (s.receive p.port Rx.acquire)
  | .locked =>
    let good := backCheckGood f
    let t := s.receive p.port fun r => r.taken good f.sequence
    settle s (if good && (t.rx p.port).pass then t.toAmp p [.report (frameStatuses f)] else t)

/-! ## The transmit side (R188, R190, R191) -/

/-- The outgoing sequence number of a port risen by 1. -/
def Lp.stepped (l : Lp) (p : Port) : Lp := { l with outSeq := l.outSeq.modify p.ix fun n => n + 1 }

/-- What a transmit buffer sends: its samples if fresh, else zeros. -/
def Held.sends (h : Held) : Period := if h.fresh then h.samples else silence48

/-- The frame a station port sends. -/
def State.stationFrameOut (s : State) (p : StationPort) : List Bool :=
  stationOut (s.lp.outSeq.get p.port.ix) (Table.build fun k => (s.ic.indicator (p.station k)).code)
    (Table.build fun k => (s.lp.stationTx.get (p.station k)).sends)

/-- STATION_TRANSMIT (R188). -/
def execStationTransmit (p : StationPort) (s : State) : Out :=
  settle s (s.modLp fun l =>
    { l.stepped p.port with
      stationTx := l.stationTx.update fun st h => if (stationPort st).ix = p.ix then h.stale else h
      sent := l.sent.set p.port.ix (s.stationFrameOut p) })

/-- PANEL_TRANSMIT: the stage as MAU publishes it, the silenced flag, the active flag (R190). -/
def execPanelTransmit (p : PanelPort) (s : State) : Out :=
  settle s (s.modLp fun l =>
    { l.stepped p.port with
      sent :=
        l.sent.set p.port.ix
          (panelOut (l.outSeq.get p.port.ix) s.mau.published s.mau.silenced (decide (s.mau.active = p))) })

/-- The frame an amplifier port sends. -/
def Lp.ampFrameOut (l : Lp) (p : AmpPort) : List Bool :=
  let tx (k : Fin 16) : ZoneTx := l.zoneTx.get (p.zone k)
  ampOut (l.outSeq.get p.port.ix) (Table.build fun k => ((tx k).override, (tx k).mute))
    (Table.build fun k => (tx k).buffer.sends)

/-- AMPLIFIER_TRANSMIT: the override and mute bits are sent as last handed and are not cleared (R191). -/
def execAmplifierTransmit (p : AmpPort) (s : State) : Out :=
  settle s (s.modLp fun l =>
    { l.stepped p.port with
      zoneTx := l.zoneTx.update fun z t => if zonePort z = p.ix then { t with buffer := t.buffer.stale } else t
      sent := l.sent.set p.port.ix (l.ampFrameOut p) })

/-! ## Resets (R183, R194) -/

/-- LP after power-on or hardware reset; what the lines carry is not the part's to reset. -/
def Lp.hardReset (l : Lp) : Lp := { Lp.reset with rx := l.rx.update fun _ r => { Rx.reset with signal := r.signal } }

/-- Every DOWN port whose line carries signal takes signal present (R183): no pass state changes, so no unit is told. -/
def Lp.takeSignals (l : Lp) : Lp := { l with rx := l.rx.update fun _ r => if r.signal then r.signalPresent else r }

end Sys2Proof.Machine
end

