-- ==== Sys2Proof/Machine/Stream.lean ====
section
/-! DEFINITION. Stream channels (Chapter 8, sections 8.1 to 8.7, and the fades of section 2.9): rings and probes, block
audio, stops and faults, the stream requests. -/

namespace Sys2Proof.Machine

/-! ## Fades (R46, R47) -/

/-- A fade event: target and length clamped, the step rounded up (R46). -/
def Fader.fade (f : Fader) (target length : Nat) : Fader :=
  let t := clampGain target
  let n := min length Config.maxFade
  let gap := (t - f.current) + (f.current - t)
  if n = 0 then ⟨t, t, 0⟩ else if f.current = t then ⟨t, t, 0⟩ else ⟨f.current, t, (gap + n - 1) / n⟩

/-- The movement of a fade at an SU period start (R47). -/
def Fader.moved (f : Fader) : Fader :=
  if f.current ≤ f.target then { f with current := min f.target (f.current + f.step) }
  else { f with current := max f.target (f.current - f.step) }

/-- Whether a moving fade has reached its target. -/
def Fader.arrived (f : Fader) : Bool := decide (f.step ≠ 0) && decide (f.current = f.target)

/-- A fade that ends: nothing moves any more. -/
def Fader.still (f : Fader) : Fader := { f with step := 0 }

/-! ## Channels -/

def State.chan (s : State) (c : Stream) : Chan := s.su.channels.get c

/-- A channel's record becomes `r`; a change into or out of RUNNING is posted to ZM (R33, R154). -/
def State.setChan (s : State) (c : Stream) (r : Chan) : State :=
  let t := s.modSu fun u => { u with channels := u.channels.set c r }
  if decide ((s.chan c).state = .running) = decide (r.state = .running) then t
  else t.sendZm .su (.streamRunning c (decide (r.state = .running)))

def StreamState.idle (v : StreamState) : Bool := decide (v = .stopped) || decide (v = .fault)

def StreamState.playing (v : StreamState) : Bool := decide (v = .running) || decide (v = .starved)

/-- The index after the cursor (R156, R158). -/
def Chan.after (r : Chan) (i : Nat) : Nat :=
  match r.ring with
  | some g => (i + 1) % g.count
  | none => i

/-- The descriptor a channel wants to read: the cursor's with no playing block, else the one after it (R156, R157). -/
def Chan.wanted (r : Chan) : Nat := if r.playing.isNone then r.cursor else r.after r.cursor

/-- The address of a descriptor (R155). -/
def Ring.descriptor (g : Ring) (i : Nat) : Addr := g.base + BitVec.ofNat 64 (16 * i)

/-- A state write to a descriptor, given to the arbiter (R155). -/
def State.writeDescriptor (s : State) (c : Stream) (i : Nat) (v : Byte) : State :=
  match (s.chan c).ring with
  | some g => s.issue [writeOf (.descriptor c (s.chan c).startNumber) (g.descriptor i) [v]]
  | none => s

/-- A probe of descriptor `i` (R156). -/
def State.probe (s : State) (c : Stream) (i : Nat) : State :=
  match (s.chan c).ring with
  | some g =>
    (s.setChan c { s.chan c with probe := some i }).issue
      [readOf (.probe c i (s.chan c).startNumber) (g.descriptor i) 16]
  | none => s

/-! ## The fetch window (R159) -/

/-- A block period: its descriptor index, its period, its address. -/
structure BlockPeriod where
  index : Nat
  period : Nat
  addr : Addr
deriving DecidableEq, Repr

def blockPeriod (i : Nat) (addr : Addr) (k : Nat) : BlockPeriod := ⟨i, k, addr + BitVec.ofNat 64 (192 * k)⟩

/-- The first two periods of the play order. -/
def Chan.window (r : Chan) : List BlockPeriod :=
  match r.playing with
  | none => []
  | some p =>
    let own := ([p.period, p.period + 1].filter fun k => k < p.len).map (blockPeriod p.index p.addr)
    let following :=
      match r.next with
      | some n => ([0, 1].filter fun k => k < n.len).map (blockPeriod n.index n.addr)
      | none => []
    (own ++ following).take 2

def Chan.marked (r : Chan) (b : BlockPeriod) : Bool :=
  r.marks.any fun m => decide (m.index = b.index) && decide (m.period = b.period)

/-- Every period of the window not yet requested is requested. -/
def State.topUp (s : State) (c : Stream) : State :=
  let r := s.chan c
  let new := r.window.filter fun b => !r.marked b
  (s.setChan c { r with marks := r.marks ++ new.map fun b => ⟨b.index, b.period, none⟩ }).issue
    (new.map fun b => readOf (.block c b.index b.period r.startNumber) b.addr 192)

/-! ## Stops, block ends and faults (R158, R162, R163) -/

/-- What a channel keeps none of once it plays no block. -/
def Chan.bare (r : Chan) : Chan :=
  { r with playing := none, next := none, marks := [], probe := none, stopPending := false }

/-- The channel stops: CONSUMED for its playing block, the cursor after it, STOPPED (R163). -/
def State.stopChannel (s : State) (c : Stream) : State :=
  let r := s.chan c
  match r.playing with
  | some p =>
    (s.writeDescriptor c p.index descriptorConsumed).setChan c
      { r.bare with state := .stopped, cursor := r.after p.index }
  | none => s.setChan c { r.bare with state := .stopped }

/-- A fade event on a channel's fader (R46). -/
def State.fadeChannel (s : State) (c : Stream) (target length : Nat) : State :=
  s.setChan c { s.chan c with fader := (s.chan c).fader.fade target length }

/-- A stop with a fade: the channel stops at once if the fade ends at the event (R163). -/
def State.stopWithFade (s : State) (c : Stream) (length : Nat) : State :=
  let t := s.setChan c { s.chan c with stopPending := true, fader := (s.chan c).fader.fade 0 length }
  if (t.chan c).fader.step = 0 then t.stopChannel c else t

/-- A new level: a fade event that cancels a stop (R163, R167). -/
def State.levelChannel (s : State) (c : Stream) (target length : Nat) : State :=
  s.setChan c { s.chan c with stopPending := false, fader := (s.chan c).fader.fade target length }

/-- A channel started: priming, with a probe of the cursor and a fade (R165). -/
def State.startChannel (s : State) (c : Stream) (index target length : Nat) : State :=
  let r := s.chan c
  let t := s.setChan c { r.bare with startNumber := r.startNumber + 1, cursor := index, state := .running }
  (t.probe c index).fadeChannel c target length

/-- The block end (R158). -/
def State.blockEnded (s : State) (c : Stream) (p : Playing) : State :=
  let t := s.writeDescriptor c p.index descriptorConsumed
  let r := t.chan c
  if p.last then t.setChan c { r.bare with state := .stopped }
  else
    let cursor := r.after r.cursor
    match r.next with
    | some n =>
      (t.setChan c
        { r with
          cursor := cursor, playing := some ⟨n.index, n.addr, n.len, n.last, 0, false⟩, next := none
          marks := r.marks.filter fun m => decide (m.index = n.index) }).writeDescriptor c n.index descriptorPlaying
    | none => t.setChan c { r with cursor := cursor, playing := none, marks := [], state := .starved }

/-- Entry into FAULT; a channel already there is unchanged. A PAUSED channel whose prior state is RUNNING is posted as
leaving RUNNING like a RUNNING one (R162). -/
def State.faultChannel (s : State) (c : Stream) : State :=
  let r := s.chan c
  if r.state = .fault then s
  else
    let t := s.setChan c { r.bare with state := .fault }
    if r.state = .paused .running then t.sendZm .su (.streamRunning c false) else t

/-- A PAUSED channel returns to its prior state (R177). -/
def Chan.resumed (r : Chan) : Chan :=
  match r.state with
  | .paused .running => { r with state := .running }
  | .paused .starved => { r with state := .starved }
  | _ => r

def State.resumeChannel (s : State) (c : Stream) : State := s.setChan c (s.chan c).resumed

/-- A SHOW channel in RUNNING or STARVED is PAUSED (R175). -/
def Chan.paused (r : Chan) : Chan :=
  if r.cls = .show then
    match r.state with
    | .running => { r with state := .paused .running }
    | .starved => { r with state := .paused .starved }
    | _ => r
  else r

/-! ## The period start of a channel (R161) -/

/-- Step 1: the fade moves; true if the channel stopped with it. -/
def State.fadePeriod (s : State) (c : Stream) : State × Bool :=
  let r := s.chan c
  let f := r.fader.moved
  if f.arrived then
    let t := s.setChan c { r with fader := f.still }
    if r.stopPending then (t.stopChannel c, true) else (t, false)
  else (s.setChan c { r with fader := f }, false)

/-- The samples of a due period, if its fetch is complete. -/
def Chan.samplesOf (r : Chan) (i k : Nat) : Option Period :=
  (r.marks.find? fun m => decide (m.index = i) && decide (m.period = k)).bind BlockMark.samples

/-- A period scaled by the fader (R33). -/
def scaled (p : Period) (g : Nat) : Period := p.update fun _ x => rs x g

/-- A due period delivered or late, then disposed (R161, step 2). -/
def State.disposePeriod (s : State) (c : Stream) (p : Playing) : State :=
  let r := s.chan c
  let t := match r.samplesOf p.index p.period with
    | some x => s.deliver (.stream c) (scaled x r.fader.current)
    | none => s
  let p' : Playing := { p with period := p.period + 1 }
  let t := t.setChan c
    { r with
      playing := some p'
      marks := r.marks.filter fun m => !(decide (m.index = p.index) && decide (m.period = p.period))
      lates := if (r.samplesOf p.index p.period).isSome then r.lates else countUp r.lates }
  if p'.len ≤ p'.period then t.blockEnded c p' else t

/-- Step 2 (R161). -/
def State.blockPeriodStart (s : State) (c : Stream) : State :=
  let r := s.chan c
  match r.playing with
  | none => if r.state = .starved then s.setChan c { r with starves := countUp r.starves } else s
  | some p =>
    if p.lead then s.setChan c { r with playing := some { p with lead := false } } else s.disposePeriod c p

/-- Whether a channel is due a probe at step 3 (R156). -/
def Chan.probeDue (r : Chan) : Bool :=
  r.state.playing && r.probe.isNone && r.next.isNone
    && match r.playing with
      | some p => !p.last
      | none => true

/-- Steps 3 and 4 (R161). -/
def State.lookAhead (s : State) (c : Stream) : State :=
  let t := if (s.chan c).probeDue then s.probe c (s.chan c).wanted else s
  if (t.chan c).state.playing then t.topUp c else t

/-- A channel at an SU period start (R161). -/
def State.channelPeriod (s : State) (c : Stream) : State :=
  match (s.chan c).state with
  | .paused _ => s
  | .stopped | .fault => (s.fadePeriod c).1
  | .running | .starved =>
    let f := s.fadePeriod c
    if f.2 then f.1 else (f.1.blockPeriodStart c).lookAhead c

/-- FADE_END: a moving fade that stands at its target (R47, R163). The period start takes it itself. -/
def execFadeEnd (c : Stream) (s : State) : Out :=
  event (s.chan c).fader.arrived s fun s =>
    let r := s.chan c
    let t := s.setChan c { r with fader := r.fader.still }
    if r.stopPending && r.state.playing then t.stopChannel c else t

/-- BLOCK_END: a playing block whose period index has reached its length (R158). The period start takes it itself. -/
def execBlockEnd (c : Stream) (s : State) : Out :=
  match (s.chan c).state, (s.chan c).playing with
  | .running, some p =>
    event (decide (p.len ≤ p.period)) s fun s =>
      let t := s.blockEnded c p
      if (t.chan c).state.playing then t.topUp c else t
  | _, _ => .next s

/-! ## Completions (R157, R160, R162) -/

/-- A descriptor found FULL becomes the playing block or the next one (R157). -/
def State.takeDescriptor (s : State) (c : Stream) (i : Nat) (d : Descriptor) : State :=
  let r := s.chan c
  let len := clamp 1 Config.maxBlock d.length
  match r.playing with
  | some _ => (s.setChan c { r with probe := none, next := some ⟨i, d.block, len, d.last⟩ }).topUp c
  | none =>
    let state : StreamState :=
      match r.state with
      | .paused _ => .paused .running
      | _ => .running
    ((s.setChan c
      { r with
        probe := none, playing := some ⟨i, d.block, len, d.last, 0, true⟩, marks := [], state := state }).writeDescriptor
      c i descriptorPlaying).topUp c

/-- A descriptor found not FULL (R157): a priming channel starves. -/
def Chan.notFull (r : Chan) : Chan :=
  let r := { r with probe := none }
  if r.playing.isSome then r
  else
    match r.state with
    | .running => { r with state := .starved }
    | .paused .running => { r with state := .paused .starved }
    | _ => r

/-- A probe's completion at SU (R157). -/
def State.probed (s : State) (c : Stream) (i start : Nat) (b : BusRead 16) : State :=
  let r := s.chan c
  if start ≠ r.startNumber ∨ r.state.idle ∨ i ≠ r.wanted then s
  else
    match b with
    | .busError => s.faultChannel c
    | .data bytes =>
      let d := decodeDescriptor bytes
      if d.state = descriptorFull then
        if aligned64 d.block then s.takeDescriptor c i d else s.faultChannel c
      else s.setChan c r.notFull

/-- PROBE_COMPLETE. -/
def execProbeComplete (r : BusRead 16) (s : State) : Out :=
  match s.inProgress with
  | some (.probe c i start) => settle s (s.portFreed.probed c i start r)
  | _ => .next s

/-- A fetch mark made complete (R160). -/
def Chan.complete (r : Chan) (i k : Nat) (x : Period) : Chan :=
  { r with
    marks := r.marks.map fun m => if m.index = i ∧ m.period = k then { m with samples := some x } else m }

/-- A block fetch's completion at SU (R160). A period that bears no mark is one the channel no longer awaits. -/
def State.blockFetched (s : State) (c : Stream) (i k start : Nat) (b : BusRead 192) : State :=
  let r := s.chan c
  if start ≠ r.startNumber ∨ r.state.idle ∨ !r.marked ⟨i, k, 0⟩ then s
  else
    match b with
    | .busError => s.faultChannel c
    | .data bytes => s.setChan c (r.complete i k (clampWords (decodeWords bytes)))

/-- BLOCK_FETCH_COMPLETE. -/
def execBlockFetchComplete (r : BusRead 192) (s : State) : Out :=
  match s.inProgress with
  | some (.block c i k start) => settle s (s.portFreed.blockFetched c i k start r)
  | _ => .next s

/-- DESCRIPTOR_WRITE_COMPLETE (R162). The completion of a write issued before SU's job reset is none of these: R201
discards it (`State.suJobReset`). -/
def execDescriptorWriteComplete (busError : Bool) (s : State) : Out :=
  match s.inProgress with
  | some (.descriptor c start) =>
    settle s
      (if busError && decide (start = (s.chan c).startNumber) then s.portFreed.faultChannel c else s.portFreed)
  | _ => .next s

/-! ## The stream requests (R164 to R167) -/

def bedClassOf (c : Nat) : Option BedClass :=
  if c = 0 then some .background else if c = 1 then some .show else none

/-- A channel with its class and ring written (R164). -/
def Chan.configured (r : Chan) (k : BedClass) (base : Addr) (count : Nat) : Chan :=
  { r with
    cls := k, ring := some ⟨base, clamp 2 64 count⟩, cursor := 0, starves := 0, lates := 0
    state := if r.state = .fault then .stopped else r.state }

/-- What SU does with STREAM_SET (R164). -/
def takeStreamSet (slot : SlotIx) (p : StreamSetParams) (s : State) : State :=
  match index 16 p.stream.toNat, bedClassOf p.cls.toNat with
  | none, _ => s.refuse slot .format 1
  | some _, none => s.refuse slot .format 2
  | some c, some k =>
    if !aligned64 p.base then s.refuse slot .align 3
    else if !(s.chan c).state.idle then s.refuse slot .state 1
    else
      ((s.setChan c ((s.chan c).configured k p.base p.count.toNat)).sendZm .su (.streamClass c k)).perform slot .none

/-- STREAM_SET. -/
def execStreamSet (slot : SlotIx) (p : StreamSetParams) (s : State) : Out :=
  request slot (.streamSet p) s.suTakesRequest s (takeStreamSet slot p)

/-- What SU does with STREAM_START (R165). -/
def takeStreamStart (slot : SlotIx) (p : StreamStartParams) (s : State) : State :=
  match index 16 p.stream.toNat with
  | none => s.refuse slot .format 1
  | some c =>
    let r := s.chan c
    if r.cls = .show then s.refuse slot .state 1
    else
      match r.ring with
      | none => s.refuse slot .state 1
      | some g =>
        if !r.state.idle then s.refuse slot .state 1
        else if g.count ≤ p.index.toNat then s.refuse slot .format 2
        else (s.startChannel c p.index.toNat p.target.toNat p.fade.toNat).perform slot .none

/-- STREAM_START. -/
def execStreamStart (slot : SlotIx) (p : StreamStartParams) (s : State) : Out :=
  request slot (.streamStart p) s.suTakesRequest s (takeStreamStart slot p)

/-- What SU does with STREAM_STOP (R166). -/
def takeStreamStop (slot : SlotIx) (p : StreamStopParams) (s : State) : State :=
  match index 16 p.stream.toNat with
  | none => s.refuse slot .format 1
  | some c =>
    if (s.chan c).cls = .show then s.refuse slot .state 1
    else if (s.chan c).state.idle then s.refuse slot .state 1
    else (s.stopWithFade c p.fade.toNat).perform slot .none

/-- STREAM_STOP. -/
def execStreamStop (slot : SlotIx) (p : StreamStopParams) (s : State) : Out :=
  request slot (.streamStop p) s.suTakesRequest s (takeStreamStop slot p)

/-- What SU does with STREAM_LEVEL (R167). -/
def takeStreamLevel (slot : SlotIx) (p : StreamLevelParams) (s : State) : State :=
  match index 16 p.stream.toNat with
  | none => s.refuse slot .format 1
  | some c =>
    if (s.chan c).cls = .show then s.refuse slot .state 1
    else (s.levelChannel c p.target.toNat p.fade.toNat).perform slot .none

/-- STREAM_LEVEL. -/
def execStreamLevel (slot : SlotIx) (p : StreamLevelParams) (s : State) : Out :=
  request slot (.streamLevel p) s.suTakesRequest s (takeStreamLevel slot p)

end Sys2Proof.Machine
end

