-- ==== Sys2Proof/Machine/Show.lean ====
section
/-! DEFINITION. The show (Chapter 8, sections 8.9 to 8.12): loading a cue table, firing cues, holds, the show requests, and
SU's period start, teardown and job reset. -/

namespace Sys2Proof.Machine

def State.modShow (s : State) (f : Show → Show) : State := s.modSu fun u => { u with theShow := f u.theShow }

/-! ## Firing cues (R172, R173) -/

/-- Whether the next cue's trigger holds (R172). -/
def Show.triggerHolds (w : Show) : Bool :=
  match w.nextCue with
  | some c =>
    match c.trigger with
    | .go => false
    | .at t => t ≤ w.clock
    | .follow d => satAdd Config.maxClock d w.lastFire ≤ w.clock
  | none => false

/-- An action dropped (R173). -/
def State.dropAction (s : State) : State := s.modSu Su.dropAction

/-- One action of a cue (R173). -/
def State.act (s : State) (number : Nat) : Action → State
  | .streamStart c i target fade =>
    let r := s.chan c
    match r.ring with
    | some g =>
      if r.cls = .show && r.state.idle && decide (i < g.count) then s.startChannel c i target fade else s.dropAction
    | none => s.dropAction
  | .streamStop c fade =>
    if (s.chan c).cls ≠ .show then s.dropAction
    else if (s.chan c).state.playing then s.stopWithFade c fade
    else s
  | .streamLevel c target fade => if (s.chan c).cls ≠ .show then s.dropAction else s.levelChannel c target fade
  | .route c set gain => s.modZm fun m => m.route s.xu.mode c (m.sets.get set).members gain
  | .clip addr len set chime policy expiry => s.clipAction number addr len set chime policy expiry

/-- The pointer moves on; after the last cue the show is ENDED (R173). -/
def Show.advanced (w : Show) (i : Nat) : Show :=
  let w := { w with lastFire := w.clock }
  if i + 1 < w.cues.length then { w with pointer := some (i + 1) } else { w with pointer := none, state := .ended }

/-- The next cue fires: its actions in order, then the pointer (R173). -/
def State.fireCue (s : State) : State :=
  match s.su.theShow.pointer with
  | some i =>
    match s.su.theShow.cues[i]? with
    | some c => (c.actions.foldl (fun s a => s.act c.number a) s).modShow fun w => w.advanced i
    | none => s
  | none => s

/-- Whether a cue is to fire within the period start under way (R172). -/
def Show.due (w : Show) : Bool := decide (w.state = .running) && w.triggerHolds

/-- Cues fire in table order for as long as the next one's trigger holds; `n` bounds how many. -/
def fireDue : Nat → State → State
  | 0, s => s
  | n + 1, s => if s.su.theShow.due then fireDue n s.fireCue else s

/-- A show's period start: the clock, then the cues (R172). -/
def State.showPeriod (s : State) : State :=
  if s.su.theShow.state = .running then
    let t := s.modShow fun w => { w with clock := satAdd Config.maxClock 1 w.clock, firing := true }
    (fireDue t.su.theShow.cues.length t).modShow fun w => { w with firing := false }
  else s

/-- SU_PERIOD_START: every channel, then the show (R161, R172). The channels go in rising number, an order the rules do
not give (assumption 41). -/
def execSuPeriodStart (s : State) : Out :=
  settle s ((List.finRange 16).foldl State.channelPeriod s).showPeriod

/-- CUE_FIRE: a cue whose trigger holds within a period start's firing (R172, R173). The period start takes it
itself; when no further cue is to fire, the firing is over. -/
def execCueFire (s : State) : Out :=
  event (s.su.theShow.firing && s.su.theShow.due) s fun s =>
    s.fireCue.modShow fun w => { w with firing := w.due }

/-! ## Holds (R175 to R177) -/

/-- A show enters HELD and its SHOW channels pause (R175), in rising number (assumption 41). -/
def State.hold (s : State) (reason : HoldReason) : State :=
  (List.finRange 16).foldl (fun s c => s.setChan c (s.chan c).paused)
    (s.modShow fun w => { w with state := .held reason })

/-- ALARM_HOLD: it acts on a RUNNING show (R128, R176). -/
def execAlarmHold (s : State) : Out :=
  event (decide (0 < s.net.alarmHolds) && !s.net.stageClaimWaits) s fun s =>
    let t := s.modNet fun n => { n with alarmHolds := n.alarmHolds - 1 }
    if t.su.theShow.state = .running then t.hold .alarm else t

def ShowState.isHeld : ShowState → Bool
  | .held _ => true
  | _ => false

/-- Every PAUSED channel returns to its prior state (R177), in rising number (assumption 41). -/
def State.resumeAll (s : State) : State := (List.finRange 16).foldl State.resumeChannel s

/-- A show back at its first cue (R178, R179). -/
def Show.rewound (w : Show) : Show := { w with state := .loaded, pointer := some 0, clock := 0, lastFire := 0 }

/-! ## The show requests (R174 to R178) -/

/-- What SU does with SHOW_GO (R174). -/
def takeShowGo (slot : SlotIx) (s : State) : State :=
  if s.mau.published.muster then s.refuse slot .state 0
  else
    match s.su.theShow.state with
    | .loaded => (s.modShow fun w => { w with state := .running, clock := 0 }).perform slot .none
    | .running => s.fireCue.perform slot .none
    | .empty | .held _ | .ended => s.refuse slot .state 0

/-- SHOW_GO. -/
def execShowGo (slot : SlotIx) (s : State) : Out := request slot .showGo s.suTakesRequest s (takeShowGo slot)

/-- What SU does with SHOW_HOLD (R175). -/
def takeShowHold (slot : SlotIx) (s : State) : State :=
  if s.su.theShow.state = .running then (s.hold .host).perform slot .none else s.refuse slot .state 0

/-- SHOW_HOLD. -/
def execShowHold (slot : SlotIx) (s : State) : Out := request slot .showHold s.suTakesRequest s (takeShowHold slot)

/-- What SU does with SHOW_RESUME (R177). -/
def takeShowResume (slot : SlotIx) (s : State) : State :=
  if s.mau.published.muster then s.refuse slot .state 0
  else if s.su.theShow.state.isHeld then
    (s.modShow fun w => { w with state := .running }).resumeAll.perform slot .none
  else s.refuse slot .state 0

/-- SHOW_RESUME. -/
def execShowResume (slot : SlotIx) (s : State) : Out := request slot .showResume s.suTakesRequest s (takeShowResume slot)

/-- A SHOW channel that plays is stopped with a fade (R178); SHOW_STOP takes the channels in rising number
(assumption 41). -/
def State.stopShowChannel (length : Nat) (s : State) (c : Stream) : State :=
  if (s.chan c).cls = .show ∧ (s.chan c).state.playing then s.stopWithFade c length else s

/-- What SU does with SHOW_STOP (R178). -/
def takeShowStop (slot : SlotIx) (p : ShowStopParams) (s : State) : State :=
  match s.su.theShow.state with
  | .running | .held _ | .ended =>
    (((List.finRange 16).foldl (State.stopShowChannel p.fade.toNat) s.resumeAll).modShow Show.rewound).perform slot .none
  | .empty | .loaded => s.refuse slot .state 0

/-- SHOW_STOP. -/
def execShowStop (slot : SlotIx) (p : ShowStopParams) (s : State) : Out :=
  request slot (.showStop p) s.suTakesRequest s (takeShowStop slot p)

/-! ## Loading a cue table (R168 to R170) -/

/-- Whether a show admits a new table. -/
def ShowState.loadable : ShowState → Bool
  | .empty | .loaded | .ended => true
  | .running | .held _ => false

/-- The read of the next 16 bytes of the list. -/
def ShowLoad.read (l : ShowLoad) : Transfer := readOf .cueList (l.list + BitVec.ofNat 64 l.offset) 16

/-- What SU does with SHOW_LOAD (R169). -/
def takeShowLoad (slot : SlotIx) (p : ShowLoadParams) (s : State) : State :=
  if !aligned64 p.list then s.refuse slot .align 1
  else if !s.su.theShow.state.loadable then s.refuse slot .state 0
  else if s.su.load.isSome then s.refuse slot .state 0
  else
    let l : ShowLoad := ⟨slot, p.list, none, [], none, 0, 0⟩
    (s.modSu fun u => { u with load := some l }).issue [l.read]

/-- SHOW_LOAD. -/
def execShowLoad (slot : SlotIx) (p : ShowLoadParams) (s : State) : Out :=
  request slot (.showLoad p) s.suTakesRequest s (takeShowLoad slot p)

def triggerOf (kind argument : Nat) : Option Trigger :=
  if kind = 0 then some .go else if kind = 1 then some (.at argument)
  else if kind = 2 then some (.follow argument) else none

/-- A stream number of an action, if it names a channel that SU holds as SHOW (R170). -/
def Su.showStream (u : Su) (n : Nat) : Option Stream :=
  (index 16 n).bind fun c => if (u.channels.get c).cls = .show then some c else none

/-- An action as stored; none for one the load refuses (R168, R170). -/
def Su.checkAction (u : Su) : RawAction → Option Action
  | .streamStart c i t f => (u.showStream c).map fun c => .streamStart c i t f
  | .streamStop c f => (u.showStream c).map fun c => .streamStop c f
  | .streamLevel c t f => (u.showStream c).map fun c => .streamLevel c t f
  | .route c k g => (index 16 c).bind fun c => (index 32 k).map fun k => .route c k g
  | .clip a l k chime partly e =>
    (index 32 k).map fun k => .clip a l k chime (if partly then .partly else .waitAll) e
  | .unknown => none

/-- What a part of the list leads to: a refusal, a further read, or the end of the list. -/
inductive LoadStep where
  | refused (c : RefusalCode) (detail : Nat)
  | more (l : ShowLoad)
  | complete (cues : List Cue) (actions : Nat)
deriving DecidableEq, Repr

def badList : LoadStep := .refused .badList 1

/-- The header of the list. -/
def ShowLoad.header (l : ShowLoad) (b : Table 16 Byte) : LoadStep :=
  let n := decodeCueCount b
  if n = 0 ∨ Config.maxCues < n then badList else .more { l with total := some n, offset := l.offset + 16 }

/-- Whether a cue number follows the one before it. -/
def ShowLoad.ascends (l : ShowLoad) (number : Nat) : Bool :=
  match l.cues.getLast? with
  | some c => c.number < number
  | none => true

/-- The head of a cue record. -/
def ShowLoad.head (l : ShowLoad) (b : Table 16 Byte) : LoadStep :=
  let h := decodeCueHead b
  if !l.ascends h.number then badList
  else
    match triggerOf h.trigger h.argument with
    | none => badList
    | some t =>
      if h.actions = 0 ∨ 4 < h.actions then badList
      else .more { l with part := some ⟨h.number, t, [], h.actions⟩, offset := l.offset + 16 }

/-- An action of the cue being read; the last one completes the cue, and the last cue the list. -/
def ShowLoad.action (l : ShowLoad) (u : Su) (total : Nat) (p : CuePart) (b : Table 16 Byte) : LoadStep :=
  if Config.maxActions < l.actions + 1 then badList
  else
    match u.checkAction (decodeAction b) with
    | none => badList
    | some a =>
      let acts := p.actions ++ [a]
      if 1 < p.missing then
        .more
          { l with
            part := some { p with actions := acts, missing := p.missing - 1 }
            actions := l.actions + 1
            offset := l.offset + 16 }
      else
        let cues := l.cues ++ [⟨p.number, p.trigger, acts⟩]
        if total ≤ cues.length then .complete cues (l.actions + 1)
        else .more { l with part := none, cues := cues, actions := l.actions + 1, offset := l.offset + 16 }

/-- One part of the list, checked as it arrives (R169, R170). -/
def ShowLoad.take (l : ShowLoad) (u : Su) : BusRead 16 → LoadStep
  | .busError => .refused .bus 1
  | .data b =>
    match l.total, l.part with
    | none, _ => l.header b
    | some _, none => l.head b
    | some n, some p => l.action u n p b

/-- The load ends with a completion of its slot. -/
def State.endLoad (s : State) (l : ShowLoad) (c : Completion) : State :=
  (s.modSu fun u => { u with load := none }).handOver l.origin c

/-- The whole list has arrived (R170). -/
def State.loadTable (s : State) (l : ShowLoad) (cues : List Cue) (actions : Nat) : State :=
  if s.su.theShow.state.loadable then
    (s.modShow fun w => { w with cues := cues }.rewound).endLoad l (.done .ok (.cues cues.length actions))
  else s.endLoad l (.refused .state 0)

/-- What a completed read of the list does. -/
def State.listRead (s : State) (l : ShowLoad) (r : BusRead 16) : State :=
  match l.take s.su r with
  | .refused c d => s.endLoad l (.refused c d)
  | .more l' => (s.modSu fun u => { u with load := some l' }).issue [l'.read]
  | .complete cues n => s.loadTable l cues n

/-- CUE_LIST_READ_COMPLETE (R169, R170). -/
def execCueListReadComplete (r : BusRead 16) (s : State) : Out :=
  match s.inProgress with
  | some .cueList =>
    match s.su.load with
    | some l => settle s (s.portFreed.listRead l r)
    | none => settle s s.portFreed
  | _ => .next s

/-! ## Teardown and job reset (R179, R201) -/

/-- One channel at a teardown (R179). -/
def State.tearDownChannel (s : State) (c : Stream) : State :=
  let s := s.resumeChannel c
  let r := s.chan c
  match r.state with
  | .running | .starved => s.stopWithFade c 0
  | .fault => s.setChan c { r.bare with state := .stopped, fader := r.fader.fade 0 0 }
  | .stopped | .paused _ => s.setChan c { r with fader := r.fader.still, stopPending := false }

/-- SU's part of a teardown: every channel in rising number, an order the rules do not give (assumption 41), then the
show. -/
def State.suTornDown (s : State) : State :=
  ((List.finRange 16).foldl State.tearDownChannel s).modShow fun w =>
    match w.state with
    | .running | .held _ | .ended => w.rewound
    | .empty | .loaded => w

/-- SU_TEARDOWN. -/
def execSuTeardown (s : State) : Out :=
  match s.net.xuToSu with
  | .teardown :: q => settle s (s.modNet fun n => { n with xuToSu := q }).suTornDown
  | _ => .next s

/-- A channel at SU's job reset, in rising number (assumption 41): its start number is kept, and ZM is told of a class that
changed. -/
def State.resetChannel (s : State) (c : Stream) : State :=
  let r := s.chan c
  let t := s.setChan c { Chan.reset with startNumber := r.startNumber }
  if r.cls = .background then t else t.sendZm .su (.streamClass c .background)

/-- A read of a cue list. -/
def Job.isCueList : Job → Bool
  | .cueList => true
  | _ => false

/-- A write of a descriptor's state byte. -/
def Job.isDescriptor : Job → Bool
  | .descriptor _ _ => true
  | _ => false

/-- SU at its job reset (R201): a load in flight is refused and its reads are discarded, one that waits at the port being
never made. The descriptor writes are made, and their completions discarded though the start number they carry is kept
(assumption 34). -/
def State.suJobReset (s : State) : State :=
  let t := match s.su.load with
    | some l => s.endLoad l (.refused .state 0)
    | none => s
  (((List.finRange 16).foldl State.resetChannel t).modShow fun _ => Show.reset).modBus fun b =>
    (b.withdraw Job.isCueList).disown Job.isDescriptor

end Sys2Proof.Machine
end

