-- ==== Sys2Proof/Machine/Resets.lean ====
section
/-! DEFINITION. Operating modes (Chapter 10): SET_MODE, job resets, the three resets; the answer to a claim; and the write
of a register, which may be a software reset (R204). -/

namespace Sys2Proof.Machine

/-! ## SET_MODE (R197, R199, R201) -/

/-- Whether a mode, entered from another, carries a teardown (R199). -/
def Mode.tearsDown (m : Mode) : Bool := decide (m = .standby) || decide (m = .service)

/-- XU hands out the parts of a mode change: the teardown to AU, IS and SU, then the job resets. -/
def Net.handOut (n : Net) (teardown jobReset : Bool) : Net :=
  let parts := (if teardown then [XuPart.teardown] else []) ++ (if jobReset then [XuPart.jobReset] else [])
  { n with
    xuToAu := n.xuToAu ++ parts
    xuToIs := n.xuToIs ++ parts
    xuToSu := n.xuToSu ++ parts
    xuToZm := n.xuToZm ++ [.mode] ++ (if jobReset then [.jobReset] else []) }

/-- The mode changed and published, and its parts handed out. -/
def State.changeMode (s : State) (m : Mode) : State :=
  (s.modXu fun x => { x with mode := m }).modNet fun n =>
    n.handOut m.tearsDown (decide (s.xu.mode = .service))

/-- What XU does with SET_MODE (R197). -/
def takeSetMode (slot : SlotIx) (p : SetModeParams) (s : State) : State :=
  match modeOfCode p.mode.toNat with
  | none => s.refuse slot .format 1
  | some m =>
    if m = s.xu.mode then s.perform slot (.modes m m)
    else if s.xu.mode = .service ∧ m ≠ .standby then s.refuse slot .state 1
    else (s.changeMode m).perform slot (.modes s.xu.mode m)

/-- SET_MODE. -/
def execSetMode (slot : SlotIx) (p : SetModeParams) (s : State) : Out :=
  request slot (.setMode p) true s (takeSetMode slot p)

/-! ## Job resets (R201) -/

/-- JOB_RESET: unit `u` takes the job reset XU handed it. -/
def execJobReset (u : Block) (s : State) : Out :=
  match u with
  | .au =>
    match s.net.xuToAu with
    | .jobReset :: q =>
      event s.au.freeToAct s fun s => (s.modNet fun n => { n with xuToAu := q }).modAu Au.jobReset
    | _ => .next s
  | .is =>
    match s.net.xuToIs with
    | .jobReset :: q => event s.ic.freeToAct s fun s => (s.modNet fun n => { n with xuToIs := q }).icJobReset
    | _ => .next s
  | .su =>
    match s.net.xuToSu with
    | .jobReset :: q => settle s (s.modNet fun n => { n with xuToSu := q }).suJobReset
    | _ => .next s
  | .zm =>
    match s.net.xuToZm with
    | .jobReset :: _ => settle s ((s.tookZm .xu).modZm fun m => m.softReset s.xu.mode)
    | _ => .next s
  | .xu | .lp | .mau => .next s

/-- CLAIM_ANSWER: a claiming unit takes ZM's answer (R8). -/
def execClaimAnswer (u : Block) (s : State) : Out :=
  match u with
  | .au => auAnswer s
  | .is => icAnswer s
  | .mau => mauAnswer s
  | .xu | .lp | .zm | .su => .next s

/-! ## Resets (R202) -/

/-- The part at the end of power-on reset; the lines' signal and the commands waiting are not the part's to reset. -/
def State.powerOn (s : State) : State :=
  { State.reset with
    pending := s.pending
    bus := s.bus.reset' fun _ => false
    lp := s.lp.hardReset }

/-- The part at the end of hardware reset: as power-on, MAU's configuration and pattern store kept. -/
def State.hardReset (s : State) : State := { s.powerOn with mau := s.mau.hardReset }

/-- XU after a software reset: the area's address and the notice mask are kept (R204). -/
def Xu.softReset (x : Xu) : Xu :=
  { Xu.reset with
    areaLo := x.areaLo, areaHi := x.areaHi, noticeEnable := x.noticeEnable, readData := x.readData }

/-- The messages that outlast a software reset: those between LP and the blocks it does not touch, and those
between MAU and ZM (R3, R202). -/
def Net.softReset (n : Net) : Net :=
  { Net.reset with
    mauToZm := n.mauToZm, zmToMau := n.zmToMau, ampToZm := n.ampToZm, panelToMau := n.panelToMau }

def Job.isPatternList : Job → Bool
  | .patternList _ => true
  | _ => false

/-- The part after a software reset: LP is kept, and MAU whole (R202). -/
def State.softReset (s : State) : State :=
  { s with
    xu := s.xu.softReset
    bus := s.bus.reset' Job.isPatternList
    zm := s.zm.softReset .standby
    au := .reset
    ic := .softReset s.lp
    mau := s.mau.orphaned
    su := .reset
    net := s.net.softReset }

/-- At the end of a reset that leaves the ports DOWN, each whose line carries signal takes signal present at once, a lock
change that is posted and noticed as any other (R183, R193). -/
def State.leaveReset (s : State) : Out := settle s (s.modLp Lp.takeSignals)

/-- POWER_ON_RESET. -/
def execPowerOnReset (s : State) : Out := s.powerOn.leaveReset

/-- HARDWARE_RESET. -/
def execHardwareReset (s : State) : Out := s.hardReset.leaveReset

/-- SOFTWARE_RESET. -/
def execSoftwareReset (s : State) : Out := .next s.softReset

/-! ## A write of a register (R204) -/

/-- A write of CONTROL without RESET: ATTACH acts first, then SCAN. -/
def State.control (s : State) (v : BitVec 32) : State :=
  let t := if v.getLsbD 0 then s.attach else s.detach
  if v.getLsbD 1 then t.requestPass else t

/-- REGISTER_WRITE: a write of any of the six registers. -/
def execRegisterWrite (r : Register) (v : BitVec 32) (s : State) : Out :=
  match r with
  | .ident | .notice => .next s
  | .control => if v.getLsbD 2 then .next s.softReset else settle s (s.control v)
  | .areaLo => settle s (s.modXu fun x => x.writeAreaLo v)
  | .areaHi => settle s (s.modXu fun x => x.writeAreaHi v)
  | .noticeEnable => settle s (s.modXu fun x => x.enable v)

end Sys2Proof.Machine
end

