-- ==== Sys2Proof/Machine/Dispatch.lean ====
section
/-! DEFINITION. One arm per command: which meaning a command has. -/

namespace Sys2Proof.Machine

/-- The effect of a command on everything but the queue. -/
def exec (i : Instr) (s : State) : Host.Outcome State Fault Refusal :=
  match i with
  | .powerOnReset => Sys2Proof.Machine.execPowerOnReset s
  | .hardwareReset => Sys2Proof.Machine.execHardwareReset s
  | .softwareReset => Sys2Proof.Machine.execSoftwareReset s
  | .attach => Sys2Proof.Machine.execAttach s
  | .detach => Sys2Proof.Machine.execDetach s
  | .scan => Sys2Proof.Machine.execScan s
  | .noticeRead => Sys2Proof.Machine.execNoticeRead s
  | .noticeEnableWrite v => Sys2Proof.Machine.execNoticeEnableWrite v s
  | .registerWrite r v => Sys2Proof.Machine.execRegisterWrite r v s
  | .headerReadComplete r => Sys2Proof.Machine.execHeaderReadComplete r s
  | .scanIntervalExpiry => Sys2Proof.Machine.execScanIntervalExpiry s
  | .meterIntervalExpiry => Sys2Proof.Machine.execMeterIntervalExpiry s
  | .slotReadComplete bytes => Sys2Proof.Machine.execSlotReadComplete bytes s
  | .stateWriteComplete => Sys2Proof.Machine.execStateWriteComplete s
  | .rewriteEnd => Sys2Proof.Machine.execRewriteEnd s
  | .meterRewriteEnd => Sys2Proof.Machine.execMeterRewriteEnd s
  | .areaBusError => Sys2Proof.Machine.execAreaBusError s
  | .busGrant => Sys2Proof.Machine.execBusGrant s
  | .setMode slot p => Sys2Proof.Machine.execSetMode slot p s
  | .zoneSet slot p => Sys2Proof.Machine.execZoneSet slot p s
  | .zoneFill slot p => Sys2Proof.Machine.execZoneFill slot p s
  | .zonesetDefine slot p => Sys2Proof.Machine.execZonesetDefine slot p s
  | .routeSet slot p => Sys2Proof.Machine.execRouteSet slot p s
  | .announce slot p => Sys2Proof.Machine.execAnnounce slot p s
  | .announceCancel slot p => Sys2Proof.Machine.execAnnounceCancel slot p s
  | .stationSet slot p => Sys2Proof.Machine.execStationSet slot p s
  | .intercomConfig slot p => Sys2Proof.Machine.execIntercomConfig slot p s
  | .callConnect slot p => Sys2Proof.Machine.execCallConnect slot p s
  | .callRelease slot p => Sys2Proof.Machine.execCallRelease slot p s
  | .alarmConfig slot p => Sys2Proof.Machine.execAlarmConfig slot p s
  | .alarmTest slot p => Sys2Proof.Machine.execAlarmTest slot p s
  | .patternLoad slot p => Sys2Proof.Machine.execPatternLoad slot p s
  | .streamSet slot p => Sys2Proof.Machine.execStreamSet slot p s
  | .streamStart slot p => Sys2Proof.Machine.execStreamStart slot p s
  | .streamStop slot p => Sys2Proof.Machine.execStreamStop slot p s
  | .streamLevel slot p => Sys2Proof.Machine.execStreamLevel slot p s
  | .showLoad slot p => Sys2Proof.Machine.execShowLoad slot p s
  | .showGo slot => Sys2Proof.Machine.execShowGo slot s
  | .showHold slot => Sys2Proof.Machine.execShowHold slot s
  | .showResume slot => Sys2Proof.Machine.execShowResume slot s
  | .showStop slot p => Sys2Proof.Machine.execShowStop slot p s
  | .auTeardown => Sys2Proof.Machine.execAuTeardown s
  | .isTeardown => Sys2Proof.Machine.execIsTeardown s
  | .suTeardown => Sys2Proof.Machine.execSuTeardown s
  | .jobReset u => Sys2Proof.Machine.execJobReset u s
  | .mixPeriodStart => Sys2Proof.Machine.execMixPeriodStart s
  | .claimRequest u => Sys2Proof.Machine.execClaimRequest u s
  | .releaseRequest u => Sys2Proof.Machine.execReleaseRequest u s
  | .heldPeriodDelivery src => Sys2Proof.Machine.execHeldPeriodDelivery src s
  | .streamPosting => Sys2Proof.Machine.execStreamPosting s
  | .conversationPosting => Sys2Proof.Machine.execConversationPosting s
  | .pageChannelPosting => Sys2Proof.Machine.execPageChannelPosting s
  | .silencedPosting => Sys2Proof.Machine.execSilencedPosting s
  | .modePosting => Sys2Proof.Machine.execModePosting s
  | .lineStatusReport p => Sys2Proof.Machine.execLineStatusReport p s
  | .ampPassLoss p => Sys2Proof.Machine.execAmpPassLoss p s
  | .releaseNotice => Sys2Proof.Machine.execReleaseNotice s
  | .eligibilityExamination => Sys2Proof.Machine.execEligibilityExamination s
  | .auPeriodStart => Sys2Proof.Machine.execAuPeriodStart s
  | .entryExpiry => Sys2Proof.Machine.execEntryExpiry s
  | .clipEnd p => Sys2Proof.Machine.execClipEnd p s
  | .playerChimeEnd p => Sys2Proof.Machine.execPlayerChimeEnd p s
  | .clipFetchComplete r => Sys2Proof.Machine.execClipFetchComplete r s
  | .preemption => Sys2Proof.Machine.execPreemption s
  | .call st target => Sys2Proof.Machine.execCall st target s
  | .answer st => Sys2Proof.Machine.execAnswer st s
  | .clear st => Sys2Proof.Machine.execClear st s
  | .groupJoin st group => Sys2Proof.Machine.execGroupJoin st group s
  | .page st set emergency => Sys2Proof.Machine.execPage st set emergency s
  | .talkDown st => Sys2Proof.Machine.execTalkDown st s
  | .talkUp st => Sys2Proof.Machine.execTalkUp st s
  | .undefinedStationEvent st code => Sys2Proof.Machine.execUndefinedStationEvent st code s
  | .isPeriodStart first => Sys2Proof.Machine.execIsPeriodStart first s
  | .ringTimeout st => Sys2Proof.Machine.execRingTimeout st s
  | .waitTimeout st => Sys2Proof.Machine.execWaitTimeout st s
  | .pageLimitExpiry c => Sys2Proof.Machine.execPageLimitExpiry c s
  | .pageChimeEnd c => Sys2Proof.Machine.execPageChimeEnd c s
  | .portCondition p => Sys2Proof.Machine.execPortCondition p s
  | .panelFrameArrival p => Sys2Proof.Machine.execPanelFrameArrival p s
  | .panelPassChange p => Sys2Proof.Machine.execPanelPassChange p s
  | .alert => Sys2Proof.Machine.execAlert s
  | .general => Sys2Proof.Machine.execGeneral s
  | .abandon => Sys2Proof.Machine.execAbandon s
  | .silence => Sys2Proof.Machine.execSilence s
  | .resound => Sys2Proof.Machine.execResound s
  | .standDown => Sys2Proof.Machine.execStandDown s
  | .mauPeriodStart => Sys2Proof.Machine.execMauPeriodStart s
  | .alarmTestEnd => Sys2Proof.Machine.execAlarmTestEnd s
  | .patternListComplete r => Sys2Proof.Machine.execPatternListComplete r s
  | .stepEnd g => Sys2Proof.Machine.execStepEnd g s
  | .suPeriodStart => Sys2Proof.Machine.execSuPeriodStart s
  | .fadeEnd c => Sys2Proof.Machine.execFadeEnd c s
  | .blockEnd c => Sys2Proof.Machine.execBlockEnd c s
  | .probeComplete r => Sys2Proof.Machine.execProbeComplete r s
  | .blockFetchComplete r => Sys2Proof.Machine.execBlockFetchComplete r s
  | .descriptorWriteComplete busError => Sys2Proof.Machine.execDescriptorWriteComplete busError s
  | .cueFire => Sys2Proof.Machine.execCueFire s
  | .cueListReadComplete r => Sys2Proof.Machine.execCueListReadComplete r s
  | .alarmHold => Sys2Proof.Machine.execAlarmHold s
  | .signalPresent p => Sys2Proof.Machine.execSignalPresent p s
  | .signalLost p => Sys2Proof.Machine.execSignalLost p s
  | .frameMissing p => Sys2Proof.Machine.execFrameMissing p s
  | .stationFrame p f => Sys2Proof.Machine.execStationFrame p f s
  | .panelFrame p f => Sys2Proof.Machine.execPanelFrame p f s
  | .backChannelFrame p f => Sys2Proof.Machine.execBackChannelFrame p f s
  | .stationTransmit p => Sys2Proof.Machine.execStationTransmit p s
  | .panelTransmit p => Sys2Proof.Machine.execPanelTransmit p s
  | .amplifierTransmit p => Sys2Proof.Machine.execAmplifierTransmit p s
  | .claimAnswer u => Sys2Proof.Machine.execClaimAnswer u s
  | .referenceWord st => Sys2Proof.Machine.execReferenceWord st s

end Sys2Proof.Machine
end

