-- ==== Sys2Proof/Machine/Frame.lean ====
section
/-! DEFINITION. What an event leaves as it was, in the terms statements use. An event that takes the part to `u` answers
`u` but for what its end adds: notices raised, pages posted, rewrites begun (R193, R205, R215, R216); a request
also ends its dispatch and lets the scan pass go on (R213), and may complete its slot (R214). -/

namespace Sys2Proof.Machine

/-- Everything but XU and the bus-master port is the same. -/
def State.sameBlocks (u t : State) : Prop :=
  t.pending = u.pending ∧ t.zm = u.zm ∧ t.au = u.au ∧ t.ic = u.ic ∧ t.mau = u.mau ∧ t.su = u.su ∧ t.lp = u.lp
    ∧ t.net = u.net

/-- A write of a page rewrite (R216). -/
def Job.isPage : Job → Bool
  | .pageOpen _ | .pageBody _ | .pageClose _ => true
  | _ => false

/-- The read by which the scan pass visits slot `k` (R213); sums of addresses here are modulo 2^64 (assumption 26). -/
def Xu.visit (x : Xu) (k : SlotIx) : Transfer :=
  ⟨.slotRead k, x.base + BitVec.ofNat 64 (256 + 64 * k.val), 64, [], true⟩

/-- Where a scan pass stands, and whether one is pending, once slot `k` has been dealt with (R213): at the next slot whose
shadow is FREE; if there is none, a pending pass begins at the first slot whose shadow is FREE; else no pass is in
progress. -/
def Xu.goesOn (x : Xu) (k : SlotIx) (pass : Option SlotIx) (waits : Bool) : Prop :=
  (∀ j, k < j → x.shadows.get j = .free → (∀ i, k < i → i < j → x.shadows.get i ≠ .free) →
    pass = some j ∧ waits = x.passPending)
  ∧ ((∀ j, k < j → x.shadows.get j ≠ .free) → waits = false
    ∧ (x.passPending = false → pass = none)
    ∧ (x.passPending = true →
        (∀ j, x.shadows.get j = .free → (∀ i < j, x.shadows.get i ≠ .free) → pass = some j)
        ∧ ((∀ j, x.shadows.get j ≠ .free) → pass = none)))

/-- The notices that stand in `n`, and perhaps LINK and ALARM (R137, R193). -/
def noticesFrom (n k : BitVec 32) : Prop :=
  ∃ link alarm : Bool, k = n ||| ((if link then noticeLink else 0) ||| (if alarm then noticeAlarm else 0))

/-- `t` is `u` with the event's changes posted: nothing differs but LINK, ALARM, the page states, and writes of page
rewrites waiting behind what the port already had. -/
def State.settles (u t : State) : Prop :=
  u.sameBlocks t
    ∧ t.xu = { u.xu with notice := t.xu.notice, pages := t.xu.pages }
    ∧ noticesFrom u.xu.notice t.xu.notice
    ∧ ∃ q, t.bus = ⟨u.bus.waiting ++ q, u.bus.current⟩ ∧ ∀ x ∈ q, x.job.isPage

/-- The same for a request that its unit keeps: its dispatch is over as well, and a pass that stands at its slot goes
on, reading the slot it comes to. -/
def State.takes (u t : State) (slot : SlotIx) : Prop :=
  u.sameBlocks t
    ∧ t.xu =
      { u.xu with
        dispatch := none, pass := t.xu.pass, passPending := t.xu.passPending, notice := t.xu.notice
        pages := t.xu.pages }
    ∧ noticesFrom u.xu.notice t.xu.notice
    ∧ (u.xu.pass ≠ some slot → t.xu.pass = u.xu.pass ∧ t.xu.passPending = u.xu.passPending)
    ∧ (u.xu.pass = some slot → u.xu.goesOn slot t.xu.pass t.xu.passPending)
    ∧ ∃ q,
        t.bus =
          ⟨u.bus.waiting ++ (if u.xu.pass = some slot then (t.xu.pass.map u.xu.visit).toList else []) ++ q,
            u.bus.current⟩
        ∧ ∀ x ∈ q, x.job.isPage

/-- `u` with a slot completed (R214): its shadow FINISHED, a refusal counted, and its writes waiting while
ATTACHED. -/
def State.completed (u : State) (slot : SlotIx) (c : Completion) : State :=
  { u with
    xu :=
      { u.xu with
        shadows := u.xu.shadows.set slot (.finished c)
        refusals := if c.isRefusal then min 65535 (u.xu.refusals + 1) else u.xu.refusals }
    bus :=
      { u.bus with
        waiting := u.bus.waiting ++ if u.xu.attach = .attached then completionWrites u.xu.base slot c else [] } }

/-- A request answered at once: `t` is `u` with the slot completed, the dispatch over and the changes posted. -/
def State.answers (u t : State) (slot : SlotIx) (c : Completion) : Prop := (u.completed slot c).takes t slot

/-- IS is free to take an event, station `st` is online, its word `w` is the oldest message of its port with `q` behind
it, and the counter last taken from it is another (R75). -/
def State.freshWord (s : State) (st : Station) (w : ControlWord) (q : List IsMsg) : Prop :=
  s.ic.awaiting = none ∧ (s.ic.stations.get st).standing ≠ .offline
    ∧ s.net.stationToIs.get (stationPort st).ix = .word st w :: q
    ∧ ∃ c, (s.ic.stations.get st).counter = some c ∧ c ≠ w.counter

/-- `s` with that word taken and nothing done with it: its counter stored, a notice of an IDLE station gone (R74,
R75). -/
def State.wordTaken (s : State) (st : Station) (w : ControlWord) (q : List IsMsg) : State :=
  { s with
    ic :=
      { s.ic with
        stations :=
          s.ic.stations.set st
            { s.ic.stations.get st with
              counter := some w.counter
              standing :=
                match (s.ic.stations.get st).standing with
                | .idle _ => .idle .quiet
                | v => v } }
    net := { s.net with stationToIs := s.net.stationToIs.set (stationPort st).ix q } }

/-- `s` with station `st` standing at `v`. -/
def State.standingSet (s : State) (st : Station) (v : Standing) : State :=
  { s with
    ic := { s.ic with stations := s.ic.stations.set st { s.ic.stations.get st with standing := v } } }

/-- `s` with station `st`, IDLE, serving its list (R86): the oldest waiter calls it. -/
def State.served (s : State) (st : Station) : State :=
  match (s.ic.stations.get st).waiting with
  | [] => s
  | x :: rest =>
    { s with
      ic :=
        { s.ic with
          stations :=
            (s.ic.stations.set st
              { s.ic.stations.get st with standing := .ringing x s.ic.ringTimeout, waiting := rest }).set x
              { s.ic.stations.get x with standing := .calling st } } }

/-- Every station on the list of `st` is WAITING on it (R73). -/
def State.callersWait (s : State) (st : Station) : Prop :=
  ∀ x ∈ (s.ic.stations.get st).waiting, ∃ n, (s.ic.stations.get x).standing = .waiting st n

/-- `s` with messages of IS to ZM behind those that wait. -/
def State.isSends (s : State) (ms : List ZmMsg) : State :=
  { s with net := { s.net with isToZm := s.net.isToZm ++ ms } }

/-- `s` with the page of channel `c` ended (R108, 1 and 2): its class released over the zones admitted, the channel
free. -/
def State.pageEnded (s : State) (c : Channel) (p : PageRec) : State :=
  { s.isSends [.release (match p.cls with | .live => .live c | .ev => .ev c) p.admitted, .pageChannel c none] with
    ic := { s.ic with channels := s.ic.channels.set c none } }

/-- `u` is `s` with what station `a` is in ended as its CLEAR ends it (R83 to R86, R89, R108): the stations of the call
enter IDLE, the one it was calling with NO_ANSWER if it was RINGING; a waiter leaves the list; a page ends; ZM is
told of standings that go; and then the stations now IDLE serve their lists. -/
def State.leaves (s u : State) (a : Station) : Prop :=
  s.callersWait a ∧
  ((∃ b notice, b ≠ a ∧ s.callersWait b
      ∧ ((s.ic.stations.get a).standing = .calling b ∧ (∃ n, (s.ic.stations.get b).standing = .ringing a n)
            ∧ notice = .quiet
          ∨ (∃ n, (s.ic.stations.get a).standing = .ringing b n) ∧ (s.ic.stations.get b).standing = .calling a
            ∧ notice = .noAnswer)
      ∧ u = (((s.standingSet a (.idle .quiet)).standingSet b (.idle notice)).served a).served b)
    ∨ (∃ b, b ≠ a ∧ s.callersWait b ∧ (s.ic.stations.get a).standing = .talking b
        ∧ (s.ic.stations.get b).standing = .talking a
        ∧ u =
          ((((s.standingSet a (.idle .quiet)).standingSet b (.idle .quiet)).isSends
            [.standing a .none, .standing b .none]).served a).served b)
    ∨ (∃ o n, o ≠ a ∧ (s.ic.stations.get a).standing = .waiting o n
        ∧ u =
          ({ s with
              ic :=
                { s.ic with
                  stations :=
                    (s.ic.stations.set o
                      { s.ic.stations.get o with
                        waiting := (s.ic.stations.get o).waiting.filter fun x => decide (x ≠ a) }).set a
                      { s.ic.stations.get a with standing := .idle .quiet } } } : State).served a)
    ∨ (∃ g, (s.ic.stations.get a).standing = .group g
        ∧ u = ((s.standingSet a (.idle .quiet)).isSends [.standing a .none]).served a)
    ∨ ∃ c p, (s.ic.stations.get a).standing = .paging c ∧ s.ic.channels.get c = some p
        ∧ u = ((s.standingSet a (.idle .quiet)).pageEnded c p).served a)

/-! ## Players -/

/-- What a player does at a period start of AU: its record after it, what it delivers, sends ZM and fetches, and how its
announcement ends, if it does. -/
structure PlayerTurn where
  after : PlayerRec
  out : List (Source × Period)
  sends : List ZmMsg
  reads : List Transfer
  done : Option Completion

/-- A period start of AU is `w` for player `p` of record `r`, whose interrupted mask it makes `inter` (R56, R57, R59, R61,
R62). One that plays nothing, its chime or its clip having ended, waits for that end (assumption 7). Addresses are
modulo 2^64 (assumption 26). -/
def PlayerRec.turn (r : PlayerRec) (p : Player) (store : PatternStore) (inter : ZoneMask) (w : PlayerTurn) : Prop :=
  (r.phase = .free → w = ⟨r, [], [], [], none⟩)
  ∧ (r.phase = .chime →
      (r.gen = none → w = ⟨{ r with interrupted := inter }, [], [], [], none⟩)
      ∧ ∀ g, r.gen = some g →
          (∀ g', g.next store = some g' →
            w = ⟨{ r with interrupted := inter, gen := some g' }, [(.player p, g.samples)], [], [], none⟩)
          ∧ (g.next store = none →
              w =
                ⟨{ r with
                    interrupted := inter, phase := .clip, gen := none, lead := true, mark0 := .requested
                    mark1 := if 2 ≤ r.clipLen then .requested else .notRequested },
                  [(.player p, g.samples)], [],
                  ⟨.clip p 0 r.startNumber, r.clipAddr, 192, [], true⟩
                    :: (if 2 ≤ r.clipLen then [⟨.clip p 1 r.startNumber, r.clipAddr + 192, 192, [], true⟩] else []),
                  none⟩))
  ∧ (r.phase = .clip →
      (r.lead = true → w = ⟨{ r with interrupted := inter, lead := false }, [], [], [], none⟩)
      ∧ (r.lead = false → r.clipLen ≤ r.cursor → w = ⟨{ r with interrupted := inter }, [], [], [], none⟩)
      ∧ (r.lead = false → r.cursor < r.clipLen → ∀ (v : PlayerRec) (out : List (Source × Period)) (heard : ZoneMask),
          heard = r.admitted &&& ~~~inter →
          ((∃ x, r.mark0 = .complete x ∧ out = [(.player p, x)]
              ∧ v =
                { r with
                  interrupted := inter, cursor := r.cursor + 1, mark0 := r.mark1, played := r.played + 1
                  mark1 := if r.cursor + 2 < r.clipLen then .requested else .notRequested })
            ∨ (∀ x, r.mark0 ≠ .complete x) ∧ out = []
              ∧ v =
                { r with
                  interrupted := inter, cursor := r.cursor + 1, mark0 := r.mark1, late := min 65535 (r.late + 1)
                  mark1 := if r.cursor + 2 < r.clipLen then .requested else .notRequested }) →
          (r.cursor + 1 < r.clipLen →
            w =
              ⟨v, out, [],
                if r.cursor + 2 < r.clipLen then
                  [⟨.clip p (r.cursor + 2) r.startNumber, r.clipAddr + BitVec.ofNat 64 (192 * (r.cursor + 2)), 192, [],
                    true⟩]
                else [], none⟩)
          ∧ (r.clipLen = r.cursor + 1 →
              w =
                ⟨{ v with phase := .free, gen := none }, out, [.release (.programmed p) r.admitted], [],
                  some (.done (if heard = r.target ∧ r.filtered = 0 then .played else .partly)
                    (.announcement r.admitted heard v.played v.late))⟩)))

/-! ## Stream channels -/

/-- The descriptor after `i` on a channel's ring (R156, R158). -/
def Chan.following (r : Chan) (i : Nat) : Nat :=
  match r.ring with
  | some g => (i + 1) % g.count
  | none => i

/-- The write by which descriptor `i` of channel `c` becomes `v` (R155), its address modulo 2^64 (assumption 26). -/
def Chan.marksDescriptor (r : Chan) (c : Stream) (i : Nat) (v : Byte) : List Transfer :=
  match r.ring with
  | some g => [⟨.descriptor c r.startNumber, g.base + BitVec.ofNat 64 (16 * i), 1, [v], true⟩]
  | none => []

/-- A channel that stops (R163): STOPPED, with no block, the cursor after the block it played. -/
def Chan.stopped (r : Chan) : Chan :=
  { r with
    state := .stopped, playing := none, next := none, marks := [], probe := none, stopPending := false
    cursor :=
      match r.playing with
      | some b => r.following b.index
      | none => r.cursor }

/-- A fader after a period start (R47): a step nearer its target, and still once it is there. -/
def Fader.faded (f : Fader) : Fader :=
  let n := if f.current ≤ f.target then min f.target (f.current + f.step) else max f.target (f.current - f.step)
  ⟨n, f.target, if n = f.target then 0 else f.step⟩

/-- The first two periods of the play order (R159), each with its descriptor's index, its own and its address, that have no
fetch mark yet. -/
def Chan.unrequested (r : Chan) : List (Nat × Nat × Addr) :=
  (match r.playing with
    | none => []
    | some b =>
      ((([b.period, b.period + 1].filter fun k => decide (k < b.len)).map fun k =>
          (b.index, k, b.addr + BitVec.ofNat 64 (192 * k)))
        ++ match r.next with
          | some n =>
            ([0, 1].filter fun k => decide (k < n.len)).map fun k => (n.index, k, n.addr + BitVec.ofNat 64 (192 * k))
          | none => []).take 2).filter
    fun x => decide (∀ m ∈ r.marks, m.index ≠ x.1 ∨ m.period ≠ x.2.1)

/-- A channel with those requested (R159). -/
def Chan.requested (r : Chan) : Chan :=
  { r with marks := r.marks ++ r.unrequested.map fun x => ⟨x.1, x.2.1, none⟩ }

/-- Their fetches. -/
def Chan.requests (r : Chan) (c : Stream) : List Transfer :=
  r.unrequested.map fun x => ⟨.block c x.1 x.2.1 r.startNumber, x.2.2, 192, [], true⟩

/-- Steps 1 and 2 of R161: a period start takes channel `c` from `r` to `mid`, delivers `out` and writes `writes`. -/
def Chan.playsPeriod (r : Chan) (c : Stream) (mid : Chan) (out : List (Source × Period)) (writes : List Transfer) : Prop :=
  ((∃ k, r.state = .paused k) → mid = r ∧ out = [] ∧ writes = [])
  ∧ ((∀ k, r.state ≠ .paused k) → ∀ d : Chan, d = { r with fader := r.fader.faded } →
      (r.fader.step ≠ 0 → r.fader.faded.current = r.fader.target → r.stopPending = true →
        mid = d.stopped ∧ out = []
        ∧ writes = match r.playing with | some b => r.marksDescriptor c b.index 0xF8 | none => [])
      ∧ ((r.fader.step = 0 ∨ r.fader.faded.current ≠ r.fader.target ∨ r.stopPending = false) →
          ((r.state = .stopped ∨ r.state = .fault) → mid = d ∧ out = [] ∧ writes = [])
          ∧ ((r.state = .running ∨ r.state = .starved) →
              (r.playing = none →
                mid = { d with starves := if r.state = .starved then min 65535 (r.starves + 1) else r.starves }
                ∧ out = [] ∧ writes = [])
              ∧ ∀ b, r.playing = some b →
                  (b.lead = true → mid = { d with playing := some { b with lead := false } } ∧ out = [] ∧ writes = [])
                  ∧ (b.lead = false → ∀ e : Chan,
                      e =
                        { d with
                          lates := if r.samplesOf b.index b.period = none then min 65535 (r.lates + 1) else r.lates
                          marks := r.marks.filter fun m => decide (m.index ≠ b.index ∨ m.period ≠ b.period) } →
                      (match r.samplesOf b.index b.period with
                        | none => out = []
                        | some x => ∃ y : Period, out = [(.stream c, y)]
                          ∧ ∀ i, y.get i = (x.get i * r.fader.faded.current + 16384) / 32768)
                      ∧ (b.period + 1 < b.len →
                          mid = { e with playing := some { b with period := b.period + 1 } } ∧ writes = [])
                      ∧ (b.len ≤ b.period + 1 → b.last = true →
                          mid = { e.stopped with cursor := r.cursor } ∧ writes = r.marksDescriptor c b.index 0xF8)
                      ∧ (b.len ≤ b.period + 1 → b.last = false → r.next = none →
                          mid =
                            { e with
                              state := .starved, playing := none, marks := [], cursor := r.following r.cursor }
                          ∧ writes = r.marksDescriptor c b.index 0xF8)
                      ∧ (b.len ≤ b.period + 1 → b.last = false → ∀ n, r.next = some n →
                          mid =
                            { e with
                              playing := some ⟨n.index, n.addr, n.len, n.last, 0, false⟩, next := none
                              marks := e.marks.filter fun m => decide (m.index = n.index)
                              cursor := r.following r.cursor }
                          ∧ writes = r.marksDescriptor c b.index 0xF8 ++ r.marksDescriptor c n.index 0xFC)))))

/-- Steps 3 and 4 of R161: then one that plays probes the descriptor it wants, if it has none in sight and awaits none,
and requests what is unrequested. -/
def Chan.looksAhead (r : Chan) (c : Stream) (after : Chan) (reads : List Transfer) : Prop :=
  (r.state ≠ .running → r.state ≠ .starved → reads = [] ∧ after = r)
  ∧ ((r.state = .running ∨ r.state = .starved) →
      (∀ g wanted, r.ring = some g → r.probe = none → r.next = none → (∀ b, r.playing = some b → b.last = false) →
        wanted = (if r.playing = none then r.cursor else r.following r.cursor) →
        reads =
          ⟨.probe c wanted r.startNumber, g.base + BitVec.ofNat 64 (16 * wanted), 16, [], true⟩ :: r.requests c
        ∧ after = { r.requested with probe := some wanted })
      ∧ ((r.ring = none ∨ r.probe ≠ none ∨ r.next ≠ none ∨ ∃ b, r.playing = some b ∧ b.last = true) →
          reads = r.requests c ∧ after = r.requested))

/-! ## Bytes -/

/-- `b` has `size` bytes: each field, given by its offset, its size and its value, little-endian in its place, and 0
everywhere else (R208). -/
def carries (size : Nat) (fields : List (Nat × Nat × Nat)) (b : List Byte) : Prop :=
  b.length = size ∧ ∀ i < size, b[i]? = some
    (match fields.find? fun f => decide (f.1 ≤ i) && decide (i < f.1 + f.2.1) with
    | some f => BitVec.ofNat 8 (f.2.2 / 256 ^ (i - f.1))
    | none => 0)

/-- `b` holds each of the fields, given by its offset, its size and its value, little-endian in its place (R208). -/
def bears (fields : List (Nat × Nat × Nat)) (b : List Byte) : Prop :=
  ∀ f ∈ fields, f.2.2 < 256 ^ f.2.1 ∧ ∀ i < f.2.1, b[f.1 + i]? = some (BitVec.ofNat 8 (f.2.2 / 256 ^ i))

end Sys2Proof.Machine
end

