-- ==== Sys2Proof/Safety.lean ====
section
/-! DEFINITION. What a sound state of the part is: the properties the spec states of every state, each an invariant that
every step is to keep. They say nothing of a program or a host; a step in any sound state is meant. -/

namespace Sys2Proof.Machine

/-! ## Zones -/

/-- The settings of a zone lie in the ranges of R2. -/
def ZoneSettings.inRange (z : ZoneSettings) : Prop :=
  z.master ≤ 32768 ∧ z.announce ≤ 32768 ∧ z.alarm ≤ 32768 ∧ z.duck ≤ 32768 ∧ z.alarmDuck ≤ 32768
    ∧ z.nightCap ≤ 32768 ∧ (1 ≤ z.slew ∧ z.slew ≤ 32768) ∧ (1 ≤ z.threshold ∧ z.threshold ≤ 3)

/-- Six gain codes. -/
def Gains.inRange (g : Gains) : Prop :=
  g.ev ≤ 32768 ∧ g.alarm ≤ 32768 ∧ g.live ≤ 32768 ∧ g.prog ≤ 32768 ∧ g.show_ ≤ 32768 ∧ g.bg ≤ 32768

/-- Every zone record lies in its ranges (R2, R3). -/
def Zm.inRange (m : Zm) : Prop :=
  ∀ z : Zone, (m.zones.get z).settings.inRange ∧ (m.zones.get z).target.inRange
    ∧ (m.zones.get z).current.inRange ∧ (m.zones.get z).clips ≤ 65535 ∧ (m.zones.get z).peak ≤ 8388608

/-- Every override bit is the one R17 gives. -/
def Zm.overridesRight (m : Zm) : Prop :=
  ∀ z : Zone, (m.zones.get z).override = overrideBit (m.zones.get z).settings.threshold (m.zones.get z).holders

/-! ## The wait list and the pattern store -/

/-- The wait list holds no more than 16 entries (R51). -/
def Au.listBounded (a : Au) : Prop := a.waitList.length ≤ 16

/-- A stored step lies in the ranges of R140. -/
def Step.inRange (t : Step) : Prop :=
  500 ≤ t.freq ∧ t.freq ≤ 80000 ∧ t.level ≤ 32768 ∧ 1 ≤ t.duration ∧ t.duration ≤ 10000

def Pattern.inRange (p : Pattern) : Prop :=
  p.repeats ≤ 255 ∧ 1 ≤ p.steps.length ∧ p.steps.length ≤ 16 ∧ ∀ t ∈ p.steps, t.inRange

/-- Every value in the store lies in the ranges of R140. -/
def Mau.storeInRange (m : Mau) : Prop := ∀ i : PatIx, (m.store.get i).inRange

/-! ## Routes and confirmation -/

/-- The active route does not pass only if neither does (R116). -/
def Mau.routeSound (m : Mau) : Prop := m.pass m.active = false → m.pass m.active.other = false

/-- The configuration is in range, and a run at its full length is spent (R119, R121, R135). -/
def Mau.runSound (m : Mau) : Prop :=
  2 ≤ m.k ∧ m.k ≤ 64 ∧ 100 ≤ m.r ∧ m.r ≤ 10000 ∧ m.run.count ≤ m.k ∧ m.revert ≤ m.r
    ∧ (m.run.count = m.k → m.run.spent = true)

/-! ## Stations (R73, R99) -/

/-- What the state of station `st` says of the other records. -/
def Ic.standingSound (c : Ic) (st : Station) : Prop :=
  match (c.stations.get st).standing with
  | .offline => (c.stations.get st).waiting = []
  | .idle _ => (c.stations.get st).waiting = []
  | .calling p => ∃ n, (c.stations.get p).standing = .ringing st n
  | .ringing p _ => (c.stations.get p).standing = .calling st
  | .talking p => p ≠ st ∧ (c.stations.get p).standing = .talking st
  | .waiting o _ => o ≠ st ∧ st ∈ (c.stations.get o).waiting
  | .group _ => True
  | .paging ch => ∃ p, c.channels.get ch = some p ∧ p.station = st

/-- A waiting list: at most 4, no duplicate, and every station on it is WAITING on its owner. -/
def Ic.listSound (c : Ic) (o : Station) : Prop :=
  (c.stations.get o).waiting.length ≤ 4 ∧ (c.stations.get o).waiting.Nodup
    ∧ ∀ w ∈ (c.stations.get o).waiting, ∃ n, (c.stations.get w).standing = .waiting o n

/-- A page channel in use carries the page of a station PAGING through it. -/
def Ic.channelSound (c : Ic) (ch : Channel) : Prop :=
  ∀ p, c.channels.get ch = some p → (c.stations.get p.station).standing = .paging ch

/-- A page that awaits ZM's answer is an IDLE station's, and its channel is free (R101). -/
def Ic.waitSound (c : Ic) : Prop :=
  ∀ w, c.awaiting = some w → (c.stations.get w.station).standing.isIdle = true ∧ c.channels.get w.channel = none

/-- A station is online exactly when its port passes and reaches its slot (R77). -/
def Ic.onlineRight (c : Ic) (st : Station) : Prop :=
  (c.stations.get st).standing.online = (c.ports.get (stationPort st).ix).reaches st

/-- The station table is one conversation structure (R73, R77, R99). -/
def Ic.sound (c : Ic) : Prop :=
  (∀ st : Station, c.standingSound st ∧ c.listSound st ∧ c.onlineRight st) ∧ (∀ ch : Channel, c.channelSound ch) ∧ c.waitSound

/-! ## Slots (R134, R213, R214) -/

/-- The slots AU's records name. -/
def Au.slotRefs (a : Au) : List SlotIx :=
  a.waitList.filterMap (fun e => e.origin.slot?)
    ++ (List.finRange 4).filterMap fun p =>
      if (a.players.get p).phase = .free then none else (a.players.get p).origin.bind Origin.slot?

/-- The slots that a job record names or that are being dispatched, once for each. -/
def State.slotRefs (s : State) : List SlotIx :=
  s.au.slotRefs
    ++ (s.mau.test.bind AlarmTest.origin).toList
    ++ s.mau.loads.filterMap PatternLoad.origin
    ++ (s.su.load.map ShowLoad.origin).toList
    ++ (s.xu.dispatch.map Prod.fst).toList

def Shadow.isTaken : Shadow → Bool
  | .taken _ => true
  | _ => false

/-- A slot whose shadow is TAKEN is named by exactly one job record or dispatch, and no other slot by any (R134). -/
def State.slotsNamed (s : State) : Prop :=
  ∀ i : SlotIx, s.slotRefs.count i = if (s.xu.shadows.get i).isTaken then 1 else 0

/-- The live transfers of the port, waiting or in progress. -/
def Bus.liveJobs (b : Bus) : List Job :=
  ((b.waiting ++ b.current.toList).filter fun t => t.live).map Transfer.job

def Shadow.isFinished : Shadow → Bool
  | .finished _ => true
  | _ => false

/-- Slot traffic in flight fits the shadows: a read is of a FREE slot, one at most and only of the pass; a state
write is of a FINISHED one, one at most (R213, R214). -/
def State.trafficFits (s : State) : Prop :=
  ∀ i : SlotIx,
    (s.bus.liveJobs.count (.slotRead i) ≤ 1)
    ∧ (.slotRead i ∈ s.bus.liveJobs → s.xu.pass = some i ∧ s.xu.shadows.get i = .free)
    ∧ (s.bus.liveJobs.count (.state i) ≤ 1)
    ∧ (.state i ∈ s.bus.liveJobs → (s.xu.shadows.get i).isFinished ∧ s.xu.attach = .attached)

/-- One header read at most is on its way, and only while XU is ATTACHING (R206). -/
def State.headerFits (s : State) : Prop :=
  s.bus.liveJobs.count .header ≤ 1 ∧ (.header ∈ s.bus.liveJobs → s.xu.attach = .attaching)

/-- A pass reads a FREE slot or stands at the slot being dispatched. -/
def State.passFits (s : State) : Prop :=
  ∀ i, s.xu.pass = some i →
    s.xu.attach = .attached ∧ (s.xu.shadows.get i = .free ∨ (s.xu.dispatch.map Prod.fst) = some i)

/-- The parts of mode changes handed to AU: a job reset follows a teardown, and stands first only when AU names no
slot (R199, R201); a release notice is held only behind a teardown. -/
def State.partsFit (s : State) : Prop :=
  (s.net.xuToAu.head? = some .jobReset → s.au.slotRefs = [])
    ∧ (XuPart.teardown ∉ s.net.xuToAu → s.net.heldNotices = 0)
    ∧ s.net.xuToAu.IsChain fun a b => b = .jobReset → a = .teardown

/-- An examination names a FREE player, and no two pattern loads share a number. -/
def State.recordsDistinct (s : State) : Prop :=
  (∀ x, s.au.exam = some x → (s.au.players.get x.player).phase = .free)
    ∧ (s.mau.loads.map PatternLoad.id).Nodup ∧ ∀ l ∈ s.mau.loads, l.id < s.mau.nextLoad

/-- R134, with what it rests on. -/
def State.slotsSound (s : State) : Prop :=
  s.slotsNamed ∧ s.trafficFits ∧ s.headerFits ∧ s.passFits ∧ s.partsFit ∧ s.recordsDistinct

/-! ## The alarm in the zones (R122, R128) -/

/-- Whether a message is a claim. -/
def ZmMsg.isClaim : ZmMsg → Bool
  | .claim _ _ _ _ => true
  | _ => false

/-- Whether a message claims ALARM. -/
def ZmMsg.claimsAlarm : ZmMsg → Bool
  | .claim (.alarm _) _ _ _ => true
  | _ => false

/-- Whether a message releases ALARM. -/
def ZmMsg.releasesAlarm : ZmMsg → Bool
  | .release (.alarm _) _ => true
  | _ => false

/-- Whether a message publishes a stage. -/
def ZmMsg.publishes : ZmMsg → Option Stage
  | .claim _ _ _ st => st
  | _ => none

/-- Only MAU's messages concern ALARM or a stage. -/
def Net.othersKeepOff (n : Net) : Prop :=
  ∀ m ∈ n.auToZm ++ n.isToZm ++ n.suToZm ++ n.xuToZm, m.claimsAlarm = false ∧ m.releasesAlarm = false ∧ m.publishes = none

/-- While MAU awaits ZM, its claim is the last message it sent, or the answer stands; otherwise it has no claim in
flight. A stage's claim covers the stage's zones and publishes it, and a test's publishes none. -/
def State.claimInFlight (s : State) : Prop :=
  match s.mau.awaiting with
  | none => (∀ m ∈ s.net.mauToZm, m.isClaim = false) ∧ s.net.zmToMau = none
      ∧ s.mau.published = s.mau.stage
  | some a =>
    (s.net.zmToMau.isSome ∧ (∀ m ∈ s.net.mauToZm, m.isClaim = false)
        ∧ s.mau.published = s.mau.stage
        ∧ (a ≠ .stageOnly ∨ s.mau.stage ≠ .idle) ∧ (s.mau.stage.muster → a = .stageOnly)
        ∧ (s.mau.stage.muster → ∀ m ∈ s.net.mauToZm, m.releasesAlarm = false))
      ∨ (s.net.zmToMau = none
        ∧ ∃ q c, s.net.mauToZm = q ++ [c] ∧ (∀ m ∈ q, m.isClaim = false)
          ∧ ((a ≠ .testStart ∧ s.mau.stage ≠ .idle
                ∧ c = .claim (.alarm .stage) s.mau.stage.candidates .any (some s.mau.stage)
                ∧ (s.mau.stage.muster → a = .stageOnly)
                ∧ (s.mau.published.muster → ∀ m ∈ q, m.releasesAlarm = false))
              ∨ (a = .testStart ∧ s.mau.stage = .idle ∧ s.mau.published = .idle
                ∧ ∃ k, c = .claim (.alarm .test) k .any none)))

/-- A test runs only while the stage is IDLE (R123, R131, R133). -/
def Mau.testAtIdle (m : Mau) : Prop := m.test.isSome → m.stage = .idle

/-- While the published stage is GENERAL or ABANDON every zone holds ALARM for the stage, and no release of ALARM is
on its way (R128). -/
def State.musterHeld (s : State) : Prop :=
  s.mau.published.muster →
    (∀ z : Zone, (s.zm.zones.get z).holders.alarm = some .stage) ∧ ∀ m ∈ s.net.mauToZm, m.releasesAlarm = false

/-- R128, with what it rests on. -/
def State.alarmSound (s : State) : Prop :=
  s.net.othersKeepOff ∧ s.claimInFlight ∧ s.mau.testAtIdle ∧ s.musterHeld

/-! ## All of them -/

/-- A sound state. -/
def State.sound (s : State) : Prop :=
  s.zm.inRange ∧ s.zm.overridesRight ∧ s.au.listBounded ∧ s.mau.storeInRange ∧ s.mau.routeSound
    ∧ s.mau.runSound ∧ s.ic.sound ∧ s.slotsSound ∧ s.alarmSound

end Sys2Proof.Machine
end

