-- ==== Sys2Proof/Certificates/Slice0/Obligations.lean ====
section
/-! DEFINITION. The statements for the provers. Each says what a command of the part does, in the terms of Machine/Frame.lean:
`u.settles t` is "t is u, but for the notices and page rewrites the event's end adds", `u.answers t slot c` is the
same for a request whose slot completes with `c`, and `u.takes t slot` for one its unit keeps. -/

open Sys2Proof Sys2Proof.Machine

/-! ## The machine -/

/-- A step takes the command at the front of the queue and runs it on the part with the rest of the queue. -/
def Obligations.StepRunsTheFrontCommand : Prop :=
  ∀ (c : Instr) (s : State), step { s with pending := c :: s.pending } = exec c s

/-- R1, R212, R217. The empty queue lets XU take its period start, which no row of the table names (the model's choice,
assumption 5, and so is that a scan expiry comes before a meter expiry): nothing while not ATTACHED. While ATTACHED
both counts move, that of a meter interval of 0 apart. A count that reaches its interval is an expiry: of the scan
interval alone, the step is SCAN_INTERVAL_EXPIRY's; of the meter interval, it is METER_INTERVAL_EXPIRY's, behind what
the scan count did. A scan expiry starts its count again and sets the pending pass or begins one, reading the first slot
whose shadow is FREE. That sums of addresses are taken modulo 2^64 is the model's (assumption 26). -/
def Obligations.EmptyQueueTakesXuPeriodStart : Prop :=
  ∀ s : State, s.pending = [] →
    (s.xu.attach ≠ .attached → step s = .next s)
    ∧ (s.xu.attach = .attached → ∀ (x : Xu) (v : State) (quiet : Bool), x = { s.xu with scanCount := 0 } →
        quiet = decide (s.xu.meterInterval = 0 ∨ s.xu.meterCount + 1 < s.xu.meterInterval) →
        (s.xu.scanCount + 1 < s.xu.scanInterval
            ∧ v = { s with xu := { s.xu with scanCount := s.xu.scanCount + 1 } }
          ∨ s.xu.scanInterval ≤ s.xu.scanCount + 1
            ∧ (s.xu.pass ≠ none ∧ v = { s with xu := { x with passPending := true } }
              ∨ s.xu.pass = none ∧ (∀ k, s.xu.shadows.get k ≠ .free) ∧ v = { s with xu := x }
              ∨ s.xu.pass = none ∧ ∃ k : SlotIx, s.xu.shadows.get k = .free ∧ (∀ i < k, s.xu.shadows.get i ≠ .free)
                ∧ v =
                  { s with
                    xu := { x with pass := some k }
                    bus :=
                      { s.bus with
                        waiting :=
                          s.bus.waiting
                            ++ [⟨.slotRead k, s.xu.base + BitVec.ofNat 64 (256 + 64 * k.val), 64, [], true⟩] } })) →
        (quiet = true → ∃ t, step s = .next t
          ∧ ({ v with
              xu :=
                { v.xu with
                  meterCount := if s.xu.meterInterval = 0 then s.xu.meterCount else s.xu.meterCount + 1 } } :
              State).settles t)
        ∧ (quiet = true → s.xu.scanInterval ≤ s.xu.scanCount + 1 →
            step s =
              exec .scanIntervalExpiry
                { s with
                  xu :=
                    { s.xu with
                      meterCount := if s.xu.meterInterval = 0 then s.xu.meterCount else s.xu.meterCount + 1 } })
        ∧ (quiet = false → step s = exec .meterIntervalExpiry v))

/-- Spec 95: each step is whole. Every command, in every state, leads to a next state and leaves the queue of commands
as it was. That one whose event is not due does nothing and so answers a next state too is the model's (assumption
1). -/
def Obligations.EveryCommandCompletes : Prop :=
  ∀ (c : Instr) (s : State), ∃ t, exec c s = .next t ∧ t.pending = s.pending

/-! ## Resets -/

/-- R183, R193, R194, R202. Power-on and hardware reset: everything at its reset value, but that a transfer in progress runs
on unheard and that a hardware reset keeps MAU's configuration and pattern store. Each port whose line carries signal
leaves DOWN at once; where one does, the link page has a change to report and LINK is raised (assumptions 10
and 18). -/
def Obligations.PowerOnAndHardwareReset : Prop :=
  ∀ (s : State) (signal : Prop), (signal ↔ ∃ p, (s.lp.rx.get p).signal = true) → ∃ t, exec .powerOnReset s = .next t
    ∧ exec .hardwareReset s = .next { t with mau := { Mau.reset with k := s.mau.k, r := s.mau.r, store := s.mau.store } }
    ∧ t.pending = s.pending ∧ (¬signal → t.xu = .reset)
    ∧ (signal → t.xu = { Xu.reset with notice := 0x08, pages := Xu.reset.pages.set 1 ⟨.dirty, 0⟩ })
    ∧ t.zm = .reset ∧ t.au = .reset ∧ t.ic = .reset ∧ t.mau = .reset ∧ t.su = .reset ∧ t.net = .reset
    ∧ t.bus.waiting = [] ∧ t.bus.current = s.bus.current.map (fun x => { x with live := false })
    ∧ t.lp = { Lp.reset with rx := t.lp.rx }
    ∧ ∀ p : Fin 8, t.lp.rx.get p =
        if (s.lp.rx.get p).signal then { Rx.reset with signal := true, lock := .acquire } else .reset

/-- R3, R20, R29, R34, R37, R42, R71, R72, R78, R139, R202, R204. What a software reset keeps: LP, MAU but for the origins of
its test and loads, its pattern list reads, the ALARM holders, line statuses and silenced copy of ZM, the area base
and NOTICE_ENABLE; and that all else is reset, each station its port reaches held as IDLE. A write of CONTROL with
RESET set is one, whatever its other bits. That the messages between LP and the units it leaves alone and MAU's
traffic with ZM outlast it, and what a read of NOTICE returned, are the model's (assumptions 17 and 19). -/
def Obligations.SoftwareResetKeepsAlarmAndLinks : Prop :=
  ∀ (s : State) (keep : Transfer → Bool),
    (∀ x, keep x = (x.live && match x.job with | .patternList _ => true | _ => false)) →
    ∃ t, exec .softwareReset s = .next t
    ∧ (∀ v : BitVec 32, v.getLsbD 2 = true → exec (.registerWrite .control v) s = .next t)
    ∧ t.pending = s.pending ∧ t.lp = s.lp ∧ t.au = .reset ∧ t.su = .reset
    ∧ t.mau =
        { s.mau with
          test := s.mau.test.map fun x => { x with origin := none }
          loads := s.mau.loads.map fun l => { l with origin := none } }
    ∧ t.xu =
        { Xu.reset with
          areaLo := s.xu.areaLo, areaHi := s.xu.areaHi, noticeEnable := s.xu.noticeEnable, readData := s.xu.readData }
    ∧ t.zm.sets = ZoneSet.resetTable ∧ t.zm.silenced = s.zm.silenced
    ∧ (∀ c z, (t.zm.cross.get c).get z = 0) ∧ (∀ c, t.zm.streams.get c = ⟨.background, false⟩)
    ∧ (∀ src, t.zm.held.get src = ⟨silence48, false⟩) ∧ (∀ st, t.zm.conv.get st = ⟨.none, false, 24576⟩)
    ∧ (∀ c, t.zm.pages.get c = none)
    ∧ (∀ z : Zone,
        (t.zm.zones.get z).settings = .default
        ∧ (t.zm.zones.get z).holders = ⟨none, (s.zm.zones.get z).holders.alarm, none, none⟩
        ∧ (t.zm.zones.get z).line = (s.zm.zones.get z).line
        ∧ (t.zm.zones.get z).current = .zero ∧ (t.zm.zones.get z).clips = 0 ∧ (t.zm.zones.get z).peak = 0
        ∧ (t.zm.zones.get z).override = (s.zm.zones.get z).holders.alarm.isSome
        ∧ (t.zm.zones.get z).target =
            { Gains.zero with
              alarm :=
                if (s.zm.zones.get z).holders.alarm = none ∨ (s.zm.zones.get z).line = .short
                  ∨ (s.zm.silenced = true ∧ (s.zm.zones.get z).holders.alarm = some .stage) then 0
                else 32768 })
    ∧ (∀ c : Channel, t.ic.channels.get c = none) ∧ t.ic.awaiting = none
    ∧ (t.ic.ringTimeout, t.ic.waitTimeout, t.ic.pageLimit) = (30000, 60000, 120000)
    ∧ (∀ i : Fin 2, t.ic.ports.get i = ⟨(s.lp.rx.get ⟨i.val, by omega⟩).pass, (s.lp.slots.get i).count⟩)
    ∧ (∀ st : Station, ∀ reached : Bool,
        reached = ((t.ic.ports.get (stationPort st).ix).pass
          && decide (st.val % 32 < (t.ic.ports.get (stationPort st).ix).count)) →
        t.ic.stations.get st = ⟨.crew, 0, 24576, if reached then .idle .quiet else .offline, false, [], none⟩)
    ∧ t.net =
        { Net.reset with
          mauToZm := s.net.mauToZm, zmToMau := s.net.zmToMau, ampToZm := s.net.ampToZm, panelToMau := s.net.panelToMau }
    ∧ t.bus.waiting = s.bus.waiting.filter keep
    ∧ t.bus.current = s.bus.current.map (fun x => { x with live := keep x })
    ∧ ∀ j ∈ t.bus.liveJobs, j.isPatternList

/-- R2, R3, R20, R72, R139, R141, R196, R204, R214: the values that stand right after power-on reset. -/
def Obligations.ResetValuesOfTheSpec : Prop :=
  (∀ z : Zone,
      (State.reset.zm.zones.get z).settings =
        ⟨⟨false, true, false, false⟩, 0, 24576, 32768, 8192, 8192, 16384, 32768, 2⟩
      ∧ (State.reset.zm.zones.get z).holders = ⟨none, none, none, none⟩
      ∧ (State.reset.zm.zones.get z).line = .unknown)
  ∧ ((State.reset.zm.sets.get 0).members = allZones ∧ ∀ i : SetIx, i ≠ 0 → (State.reset.zm.sets.get i).members = 0)
  ∧ (State.reset.ic.ringTimeout, State.reset.ic.waitTimeout, State.reset.ic.pageLimit) = (30000, 60000, 120000)
  ∧ (State.reset.mau.stage, State.reset.mau.active, State.reset.mau.k, State.reset.mau.r) = (.idle, .pa, 8, 1000)
  ∧ (∀ i : PatIx, (State.reset.mau.store.get i).passLength = [1000, 22000, 500, 1000].getD i.val 0)
  ∧ State.reset.xu.mode = .standby ∧ State.reset.xu.attach = .detached
  ∧ (State.reset.xu.register .ident = 0x57AE0064
      ∧ ∀ r : Register, r ≠ .ident → State.reset.xu.register r = 0)
  ∧ ∀ i : SlotIx, State.reset.xu.shadows.get i = .free

/-- The state after power-on reset is sound, in each of the senses of Safety.lean. -/
def Obligations.ResetIsSound : Prop := State.reset.sound

/-! ## Registers, attach, scan, completions, rewrites and the port -/

/-- R204, R205. NOTICE_ENABLE takes the five bits it has. AREA_LO and AREA_HI are stored only while DETACHED, AREA_LO without
its low twelve bits. Writes of IDENT and NOTICE are discarded. A write of CONTROL without RESET acts with ATTACH first
and SCAN after it: with ATTACH 0 it is DETACH, and its SCAN is discarded; with ATTACH 1 it is SCAN if that is written 1 and
XU is ATTACHED, for ATTACH then does nothing, and else ATTACH, a SCAN while DETACHED or ATTACHING being discarded. A read of NOTICE returns every bit set and clears them; the interrupt line is asserted exactly
while a bit is set in both NOTICE and NOTICE_ENABLE, so that the read leaves it deasserted. -/
def Obligations.RegistersActAndNoticesClear : Prop :=
  ∀ (s : State) (v : BitVec 32),
    (exec (.registerWrite .ident v) s = .next s ∧ exec (.registerWrite .notice v) s = .next s)
    ∧ (∃ t, exec (.registerWrite .noticeEnable v) s = .next t ∧ exec (.noticeEnableWrite v) s = .next t
        ∧ ({ s with xu := { s.xu with noticeEnable := v &&& 0x1F } } : State).settles t)
    ∧ (s.xu.attach = .detached →
        (∃ t, exec (.registerWrite .areaLo v) s = .next t
          ∧ ({ s with xu := { s.xu with areaLo := v &&& 0xFFFFF000 } } : State).settles t)
        ∧ ∃ t, exec (.registerWrite .areaHi v) s = .next t
          ∧ ({ s with xu := { s.xu with areaHi := v } } : State).settles t)
    ∧ (s.xu.attach ≠ .detached →
        (∃ t, exec (.registerWrite .areaLo v) s = .next t ∧ s.settles t)
        ∧ ∃ t, exec (.registerWrite .areaHi v) s = .next t ∧ s.settles t)
    ∧ (v.getLsbD 2 = false → v.getLsbD 0 = false → exec (.registerWrite .control v) s = exec .detach s)
    ∧ (v.getLsbD 2 = false → v.getLsbD 0 = true →
        exec (.registerWrite .control v) s =
          if v.getLsbD 1 = true ∧ s.xu.attach = .attached then exec .scan s else exec .attach s)
    ∧ (∃ t, exec .noticeRead s = .next t
        ∧ ({ s with xu := { s.xu with readData := s.xu.notice, notice := 0 } } : State).settles t
        ∧ t.xu.readData = s.xu.notice ∧ t.xu.notice = 0 ∧ t.xu.interrupt = false)
    ∧ (s.xu.interrupt = true ↔ ∃ i : Fin 32, s.xu.notice.getLsbD i.val = true ∧ s.xu.noticeEnable.getLsbD i.val = true)

/-- R206, R207. ATTACH while DETACHED enters ATTACHING and issues one read of the 256-byte header at the base; otherwise it
does nothing. DETACH while not DETACHED, and a bus error on area traffic, leave the area: no pass, no pending pass, no
meter rewrite, the completions of area traffic outstanding discarded, every page rewrite abandoned, and all else as it
was, but that a bus error frees the port and sets AREA_FAULT. That an abandoned page is DIRTY, and that discarded
transfers run on in the queue, are the model's (assumptions 39 and 11). -/
def Obligations.AttachAndDetach : Prop :=
  ∀ (s : State) (area : Job → Bool) (unheard : Transfer → Transfer) (left : Xu),
    (∀ j, area j = true ↔
      match j with
      | .slotRead _ | .header | .taken _ | .results _ | .code _ | .state _ | .pageOpen _ | .pageBody _ | .pageClose _
      | .meterOpen | .meterBody | .meterClose => True
      | _ => False) →
    (∀ x, unheard x = if area x.job then { x with live := false } else x) →
    left =
      { s.xu with
        attach := .detached, pass := none, passPending := false, meterWriting := false
        pages :=
          s.xu.pages.update fun _ g =>
            if g.rewrite = .writing ∨ g.rewrite = .writingOwed then { g with rewrite := .dirty } else g } →
    (s.xu.attach = .detached →
      (∃ t, exec .attach s = .next t
        ∧ ({ s with
            xu := { s.xu with attach := .attaching }
            bus := { s.bus with waiting := s.bus.waiting ++ [⟨.header, s.xu.areaHi ++ s.xu.areaLo, 256, [], true⟩] } } :
            State).settles t)
      ∧ ∃ t, exec .detach s = .next t ∧ s.settles t)
    ∧ (s.xu.attach ≠ .detached →
        (∃ t, exec .attach s = .next t ∧ s.settles t)
        ∧ exec .detach s =
            .next { s with xu := left, bus := ⟨s.bus.waiting.map unheard, s.bus.current.map unheard⟩ })
    ∧ ∀ j, s.inProgress = some j → area j = true → j ≠ .header →
        exec .areaBusError s =
          .next
            { s with
              xu := { left with notice := s.xu.notice ||| 0x10 }, bus := ⟨s.bus.waiting.map unheard, none⟩ }

/-- R206, R208. The completion of the header read decides the attach: with the signature and the version right, XU is
ATTACHED with the clamped intervals and both counts at 0, and every FINISHED shadow's writes are issued; otherwise it
is DETACHED again with AREA_FAULT. That sums of addresses are taken modulo 2^64 is the model's (assumption 26). -/
def Obligations.HeaderReadDecidesAttach : Prop :=
  ∀ (s : State), s.inProgress = some .header → s.xu.attach = .attaching →
    (∃ t, exec (.headerReadComplete .busError) s = .next t
      ∧ ({ s with
          xu := { s.xu with attach := .detached, notice := s.xu.notice ||| 0x10 }
          bus := { s.bus with current := none } } : State).settles t)
    ∧ ∀ (b : Table 256 Byte) (signature version scan meter : Nat),
        bears [(0, 4, signature), (4, 1, version), (8, 1, scan), (10, 2, meter)] b.toList →
        (signature = 0x31454157 → version = 1 →
          ∃ t, exec (.headerReadComplete (.data b)) s = .next t ∧ s.sameBlocks t
            ∧ t.xu.attach = .attached ∧ t.xu.scanCount = 0 ∧ t.xu.meterCount = 0
            ∧ t.xu.scanInterval = max 1 (min 16 scan)
            ∧ t.xu.meterInterval =
                (if meter = 0 then 0 else max 10 (min 1000 meter))
            ∧ t.xu.shadows = s.xu.shadows
            ∧ (∀ i c, s.xu.shadows.get i = .finished c →
                ∀ x ∈ completionWrites s.xu.base i c, x ∈ t.bus.waiting)
            ∧ ∀ p, (t.xu.pages.get p).rewrite = .writing)
        ∧ ((signature ≠ 0x31454157 ∨ version ≠ 1) →
          exec (.headerReadComplete (.data b)) s = exec (.headerReadComplete .busError) s)

/-- R212. A request for a pass begins one at the first slot whose shadow is FREE if none is in progress, sets the
pending pass if one is, and is discarded unless ATTACHED; SCAN is such a request, and so is a scan interval expiry,
which starts XU's count again and does the same behind it. That sums of addresses are taken modulo 2^64 is the model's (assumption 26). -/
def Obligations.ScanRequestsBeginPasses : Prop :=
  ∀ s : State,
    (s.xu.attach ≠ .attached → (∃ t, exec .scan s = .next t ∧ s.settles t) ∧ exec .scanIntervalExpiry s = .next s)
    ∧ (s.xu.attach = .attached → ∀ (c : Instr) (x : Xu),
        (c = .scan ∧ x = s.xu ∨ c = .scanIntervalExpiry ∧ x = { s.xu with scanCount := 0 }) →
        (s.xu.pass ≠ none → ∃ t, exec c s = .next t ∧ ({ s with xu := { x with passPending := true } } : State).settles t)
        ∧ (s.xu.pass = none →
            (∀ k : SlotIx, s.xu.shadows.get k = .free → (∀ i < k, s.xu.shadows.get i ≠ .free) → ∃ t, exec c s = .next t
              ∧ ({ s with
                  xu := { x with pass := some k }
                  bus :=
                    { s.bus with
                      waiting :=
                        s.bus.waiting
                          ++ [⟨.slotRead k, s.xu.base + BitVec.ofNat 64 (256 + 64 * k.val), 64, [], true⟩] } } :
                  State).settles t)
            ∧ ((∀ k, s.xu.shadows.get k ≠ .free) → ∃ t, exec c s = .next t ∧ ({ s with xu := x } : State).settles t)))

/-- R198, R208, R209, R213, R214. The completion of a slot read while no request is being dispatched: a POSTED slot of
a known kind, its kind and parameters laid out as R209 lists them, that the mode accepts, by the table of R198, is
TAKEN with its kind, the TAKEN write waits, and the request is dispatched and holds the slot; an unknown kind is
refused FORMAT and one the mode does not accept MODE, both with detail 0, and nothing is dispatched; a slot not POSTED
is left alone. Where nothing is dispatched the pass goes on to the next slot whose shadow is FREE, and at its end a
pending pass begins. That sums of addresses are taken modulo 2^64 is the model's (assumption 26). -/
def Obligations.SlotReadTakesPostedRequests : Prop :=
  (∀ (r : Request) (m : Mode), acceptedIn r m = true ↔
    match r with
    | .announce _ | .callConnect _ | .streamStart _ | .streamStop _ | .streamLevel _ | .showGo | .showHold | .showResume
    | .showStop _ => m = .normal ∨ m = .night
    | .alarmTest _ => m = .normal ∨ m = .night ∨ m = .service
    | .showLoad _ => m = .standby ∨ m = .normal ∨ m = .night
    | _ => True)
  ∧ (∀ (b : Table 64 Byte) (r : Request) (code : Byte) (fields : List (Nat × Nat × Nat)),
      (code, fields) =
        (match r with
        | .setMode p => ((0x01 : Byte), [(8, 1, p.mode.toNat)])
        | .zoneSet p =>
          (0x10, [(8, 1, p.zone.toNat), (9, 1, p.flags.toNat), (10, 2, p.master.toNat), (12, 2, p.announce.toNat),
            (14, 2, p.alarm.toNat), (16, 2, p.duck.toNat), (18, 2, p.alarmDuck.toNat), (20, 2, p.nightCap.toNat),
            (22, 2, p.slew.toNat), (24, 1, p.threshold.toNat)])
        | .zoneFill p => (0x11, [(8, 1, p.set.toNat), (9, 1, p.selector.toNat), (10, 2, p.value.toNat)])
        | .zonesetDefine p => (0x12, [(8, 1, p.set.toNat), (16, 8, p.members.toNat), (9, 1, p.chime.toNat)])
        | .routeSet p => (0x13, [(8, 1, p.stream.toNat), (9, 1, p.set.toNat), (10, 2, p.gain.toNat)])
        | .announce p =>
          (0x20, [(8, 8, p.mask.toNat), (16, 8, p.clipAddr.toNat), (24, 4, p.clipLen.toNat), (28, 1, p.chime.toNat),
            (29, 1, p.policy.toNat), (32, 4, p.expiry.toNat), (30, 1, p.urgent.toNat)])
        | .announceCancel p => (0x21, [(8, 1, p.slot.toNat)])
        | .stationSet p =>
          (0x30, [(8, 1, p.station.toNat), (9, 1, p.authority.toNat), (10, 2, p.groups.toNat), (12, 2, p.listen.toNat)])
        | .intercomConfig p => (0x31, [(8, 4, p.ring.toNat), (12, 4, p.wait.toNat), (16, 4, p.page.toNat)])
        | .callConnect p => (0x32, [(8, 1, p.a.toNat), (9, 1, p.b.toNat)])
        | .callRelease p => (0x33, [(8, 1, p.station.toNat)])
        | .alarmConfig p => (0x40, [(8, 2, p.k.toNat), (10, 2, p.r.toNat)])
        | .alarmTest p => (0x41, [(8, 1, p.pattern.toNat), (9, 1, p.set.toNat), (12, 4, p.duration.toNat)])
        | .patternLoad p => (0x42, [(8, 1, p.slot.toNat), (16, 8, p.list.toNat)])
        | .streamSet p =>
          (0x50, [(8, 1, p.stream.toNat), (9, 1, p.cls.toNat), (16, 8, p.base.toNat), (24, 1, p.count.toNat)])
        | .streamStart p =>
          (0x51, [(8, 1, p.stream.toNat), (9, 1, p.index.toNat), (10, 2, p.target.toNat), (12, 4, p.fade.toNat)])
        | .streamStop p => (0x52, [(8, 1, p.stream.toNat), (12, 4, p.fade.toNat)])
        | .streamLevel p => (0x53, [(8, 1, p.stream.toNat), (10, 2, p.target.toNat), (12, 4, p.fade.toNat)])
        | .showLoad p => (0x60, [(16, 8, p.list.toNat)])
        | .showGo => (0x61, [])
        | .showHold => (0x62, [])
        | .showResume => (0x63, [])
        | .showStop p => (0x64, [(12, 4, p.fade.toNat)])) →
      (decodeRequest b = some r ↔ b.get 1 = code ∧ bears fields b.toList))
  ∧ (∀ b : Table 64 Byte, decodeRequest b = none ↔
      b.get 1 ∉ [(0x01 : Byte), 0x10, 0x11, 0x12, 0x13, 0x20, 0x21, 0x30, 0x31, 0x32, 0x33, 0x40, 0x41, 0x42, 0x50, 0x51, 0x52,
        0x53, 0x60, 0x61, 0x62, 0x63, 0x64])
  ∧ ∀ (s : State) (k : SlotIx) (b : Table 64 Byte), s.inProgress = some (.slotRead k) → s.xu.dispatch = none →
    s.xu.pass = some k → s.xu.attach = .attached →
    (b.get 0 ≠ 0xFE → ∃ t, exec (.slotReadComplete b) s = .next t
      ∧ ({ s with bus := { s.bus with current := none } } : State).takes t k)
    ∧ (b.get 0 = 0xFE → ∀ v : State,
        v =
          { s with
            xu := { s.xu with shadows := s.xu.shadows.set k (.taken (b.get 1)) }
            bus :=
              { waiting :=
                  s.bus.waiting ++ [⟨.taken k, s.xu.base + BitVec.ofNat 64 (256 + 64 * k.val), 1, [0xFC], true⟩]
                current := none } } →
        (∀ r, decodeRequest b = some r → acceptedIn r s.xu.mode = true → ∃ t, exec (.slotReadComplete b) s = .next t
          ∧ ({ v with xu := { v.xu with dispatch := some (k, r) } } : State).settles t
          ∧ t.jobOf k = some (.dispatch r))
        ∧ ∀ code : RefusalCode,
            (decodeRequest b = none ∧ code = .format
              ∨ (∃ r, decodeRequest b = some r ∧ acceptedIn r s.xu.mode = false) ∧ code = .mode) →
            ∃ t, exec (.slotReadComplete b) s = .next t ∧ v.answers t k (.refused code 0))

/-- R136, R18, R208, R209, R211, R214, R216, R217. What is written, and what the last writes end. A completion's writes
are, in order, the results where a DONE has them, code and detail, and the state byte; each status page holds the
values of its layout. The last write of a completion frees the slot and sets FINISHED. The closing count write of a
page ends its rewrite and sets PAGES, and a page that owed a change begins its next rewrite at once, an odd count, its
content and an even count. The even count write of the meter page ends its rewrite and sets nothing. The detail 0 of
every DONE, one write for a page's content, and the next cue number when no cue is next are the model's (assumptions
35, 9 and 3). That sums of addresses are taken modulo 2^64 is the model's (assumption 26). -/
def Obligations.LastWritesEndWhatTheyWrite : Prop :=
  (∀ (base a : Addr) (k : SlotIx) (c : Completion) (st code detail : Byte), a = base + BitVec.ofNat 64 (256 + 64 * k.val) →
    ((∃ o r, c = .done o r ∧ st = 0xF8 ∧ detail = 0
        ∧ (o, code) ∈ [(JobOutcome.ok, (0x00 : Byte)), (.played, 0x01), (.partly, 0x02), (.cancelled, 0x03),
          (.preempted, 0x04), (.expired, 0x05), (.filtered, 0x06), (.aborted, 0x07)])
      ∨ ∃ e d, c = .refused e d ∧ st = 0xF4 ∧ detail = BitVec.ofNat 8 d
        ∧ (e, code) ∈ [(RefusalCode.format, (0x10 : Byte)), (.mode, 0x11), (.align, 0x12), (.state, 0x13),
          (.full, 0x14), (.noTarget, 0x15), (.badList, 0x16), (.bus, 0x17)]) →
    ∃ results, completionWrites base k c
        = results ++ [⟨.code k, a + 2, 2, [code, detail], true⟩, ⟨.state k, a, 1, [st], true⟩]
      ∧ (∀ r fields, (∃ o, c = .done o r) →
          (match r with
            | .none => False
            | .modes m n => fields = [(0, 1, m.code), (1, 1, n.code)]
            | .zones n => fields = [(0, 1, n)]
            | .announcement x y p l => fields = [(0, 8, x.toNat), (8, 8, y.toNat), (16, 4, p), (20, 2, l)]
            | .test m n => fields = [(0, 8, m.toNat), (8, 4, n)]
            | .pattern n p => fields = [(0, 1, n), (4, 4, p)]
            | .cues n m => fields = [(0, 2, n), (2, 2, m)]) →
          ∃ b, results = [⟨.results k, a + 40, 24, b, true⟩] ∧ carries 24 fields b)
      ∧ ((∀ o r, c = .done o r → r = .none) → results = []))
  ∧ (∀ (s : State) (bit : Bool → Nat) (w : Show) (number : StatusPage → Nat) (held : List Zone)
      (with' : Standing → Nat) (level : ZoneRec → Nat), w = s.su.theShow → (∀ b, bit b = if b then 1 else 0) →
      (∀ p, number p = match w.nextCue with
        | some c => c.number
        | none => (Config.absentCueNumber (s.xu.pages.get p.ix).count.toNat).toNat) →
      held = (List.finRange 64).filter (fun z => decide ((s.zm.zones.get z).holders.alarm ≠ none)) →
      (∀ v, with' v = match v with
        | .calling x | .ringing x _ | .talking x | .waiting x _ => x.val
        | .group g => g.val
        | .paging c => c.val
        | _ => 0xFF) →
      (∀ z, level z =
        if z.target.ev ≠ 0 then z.current.ev else if z.target.alarm ≠ 0 then z.current.alarm
        else if z.target.live ≠ 0 then z.current.live else if z.target.prog ≠ 0 then z.current.prog
        else if z.target.show_ ≠ 0 then z.current.show_ else if z.target.bg ≠ 0 then z.current.bg else 0) →
      carries 256
        ([(4, 1, s.xu.mode.code), (5, 1, s.mau.published.rank), (6, 1, bit s.mau.silenced),
          (7, 1, if s.mau.active = .pa then 0 else 1), (8, 1, bit s.mau.passA), (9, 1, bit s.mau.passB),
          (12, 1, held.length)]
          ++ ([LineStatus.ok, .opened, .short, .ampFault, .unknown].map fun l =>
            (13 + l.code, 1, (held.filter fun z => decide ((s.zm.zones.get z).line = l)).length))
          ++ [(18, 1, w.state.code), (19, 1, bit w.nextCue.isSome), (20, 2, number .general), (24, 4, w.clock),
            (28, 2, w.dropped), (30, 2, s.mau.ignored), (32, 2, s.xu.refusals)])
        (pageBytes s .general)
      ∧ carries 256
          ((List.finRange 8).flatMap fun i =>
            let r := s.lp.rx.get i
            let n : SlotCount := if h : i.val < 2 then s.lp.slots.get ⟨i.val, h⟩ else ⟨0, false⟩
            [(32 * i.val + 4, 1, r.lock.code), (32 * i.val + 5, 1, bit r.pass), (32 * i.val + 6, 1, r.score),
              (32 * i.val + 8, 2, r.crcErrors), (32 * i.val + 10, 2, r.seqErrors), (32 * i.val + 12, 2, r.lockLosses),
              (32 * i.val + 14, 1, n.count), (32 * i.val + 15, 1, bit n.mismatch)])
          (pageBytes s .link)
      ∧ carries 2304
          ((List.finRange 64).flatMap fun i =>
            let z := s.zm.zones.get i
            let h := z.holders
            let at' (n : Nat) : Nat := 32 + 32 * i.val + n
            [(at' 0, 1, z.line.code),
              (at' 1, 1, if h.ev ≠ none then 0 else if h.alarm ≠ none then 1 else if h.live ≠ none then 2
                else if h.prog ≠ none then 3 else 4),
              (at' 2, 1, bit z.override), (at' 4, 1, (h.ev.map Fin.val).getD 0xFF),
              (at' 5, 1, match h.alarm with | none => 0xFF | some .stage => 1 | some .test => 2),
              (at' 6, 1, (h.live.map Fin.val).getD 0xFF), (at' 7, 1, (h.prog.map Fin.val).getD 0xFF),
              (at' 8, 2, level z), (at' 10, 2, z.clips)])
          (pageBytes s .zone)
      ∧ carries 1280
          ((List.finRange 64).flatMap fun i =>
            let r := s.ic.stations.get i
            let at' (n : Nat) : Nat := 32 + 16 * i.val + n
            [(at' 0, 1, r.standing.code), (at' 1, 1, with' r.standing), (at' 2, 1, (s.ic.indicator i).code.toNat),
              (at' 3, 1, bit (decide (r.standing ≠ .offline))), (at' 4, 1, r.waiting.length)])
          (pageBytes s .station)
      ∧ carries 768
          ((List.finRange 16).flatMap fun i =>
            let c := s.su.channels.get i
            let at' (n : Nat) : Nat := 32 + 32 * i.val + n
            [(at' 0, 1, c.state.code), (at' 1, 1, c.cursor), (at' 2, 2, c.fader.current), (at' 4, 2, c.starves),
              (at' 6, 2, c.lates)])
          (pageBytes s .stream)
      ∧ carries 256
          [(4, 1, w.state.code), (5, 1, match w.state with | .held .host => 1 | .held .alarm => 2 | _ => 0),
            (6, 1, bit w.nextCue.isSome), (8, 2, number .show), (12, 4, w.clock), (16, 2, w.cues.length)]
          (pageBytes s .show))
  ∧ ([Mode.standby, .normal, .night, .service].map Mode.code = [0, 1, 2, 3]
    ∧ [Lock.down, .acquire, .locked].map Lock.code = [0, 1, 2]
    ∧ [LineStatus.ok, .opened, .short, .ampFault, .unknown].map LineStatus.code = [0, 1, 2, 3, 4]
    ∧ [Stage.idle, .alert, .general, .abandon].map Stage.rank = [0, 1, 2, 3]
    ∧ (∀ n a b g c, [Standing.offline, .idle n, .calling a, .ringing a b, .talking a, .waiting a b, .group g,
        .paging c].map Standing.code = [0, 1, 2, 3, 4, 5, 6, 7])
    ∧ (∀ p, [StreamState.stopped, .running, .starved, .paused p, .fault].map StreamState.code = [0, 1, 2, 3, 4])
    ∧ ∀ h, [ShowState.empty, .loaded, .running, .held h, .ended].map ShowState.code = [0, 1, 2, 3, 4])
  ∧ ∀ s : State,
    (∀ k, s.inProgress = some (.state k) → ∃ t, exec .stateWriteComplete s = .next t
      ∧ ({ s with
          xu := { s.xu with shadows := s.xu.shadows.set k .free, notice := s.xu.notice ||| 0x01 }
          bus := { s.bus with current := none } } : State).settles t)
    ∧ (s.inProgress = some .meterClose → ∃ t, exec .meterRewriteEnd s = .next t
      ∧ ({ s with xu := { s.xu with meterWriting := false }, bus := { s.bus with current := none } } : State).settles t)
    ∧ ∀ p a size, s.inProgress = some (.pageClose p) → s.xu.attach = .attached →
        (p, a, size) ∈ [(StatusPage.general, s.xu.base + 0x1100, 256), (.link, s.xu.base + 0x1200, 256),
          (.zone, s.xu.base + 0x1300, 2304), (.station, s.xu.base + 0x1C00, 1280), (.stream, s.xu.base + 0x2100, 768),
          (.show, s.xu.base + 0x2400, 256)] →
        ∃ t, exec .rewriteEnd s = .next t
      ∧ s.sameBlocks t ∧ t.bus.current = none ∧ t.xu.notice.getLsbD 1 = true
      ∧ ((s.xu.pages.get p.ix).rewrite = .writingOwed →
          t.xu.pages.get p.ix = ⟨.writing, (s.xu.pages.get p.ix).count + 2⟩
          ∧ ∀ n, n = (s.xu.pages.get p.ix).count →
              ∃ before after, t.bus.waiting = before
                ++ [⟨.pageOpen p, a, 4, leBytes 4 (n + 1).toNat, true⟩,
                  ⟨.pageBody p, a + 4, size - 4, (pageBytes s p).drop 4, true⟩,
                  ⟨.pageClose p, a, 4, leBytes 4 (n + 2).toNat, true⟩]
                ++ after)
      ∧ ((s.xu.pages.get p.ix).rewrite = .writing → t.xu.pages.get p.ix = ⟨.clean, (s.xu.pages.get p.ix).count⟩)

/-- R208, R211, R217. At a meter interval expiry with no meter rewrite in progress the peaks are taken and cleared and
the page is written with the values taken: an odd count, the 64 peaks in their places, an even count, its count moving
by two; with one in progress nothing but XU's count moves, and while not ATTACHED or with the interval 0 there is no
expiry. That one write holds all the peaks is the model's choice (assumption 9). That sums of addresses are taken
modulo 2^64 is the model's (assumption 26). -/
def Obligations.MeterExpiryTakesAndClearsPeaks : Prop :=
  ∀ s : State,
    (s.xu.attach ≠ .attached ∨ s.xu.meterInterval = 0 → exec .meterIntervalExpiry s = .next s)
    ∧ (s.xu.attach = .attached → s.xu.meterInterval ≠ 0 → s.xu.meterWriting = true →
        ∃ t, exec .meterIntervalExpiry s = .next t ∧ ({ s with xu := { s.xu with meterCount := 0 } } : State).settles t)
    ∧ (s.xu.attach = .attached → s.xu.meterInterval ≠ 0 → s.xu.meterWriting = false →
        ∃ t, exec .meterIntervalExpiry s = .next t ∧ ∃ page : List Byte,
          carries 2816 ((List.finRange 64).map fun z => (32 + 4 * z.val, 4, (s.zm.zones.get z).peak)) page
          ∧ ({ s with
              xu := { s.xu with meterCount := 0, meterPage := s.xu.meterPage + 2, meterWriting := true }
              zm := { s.zm with zones := s.zm.zones.update fun _ r => { r with peak := 0 } }
              bus :=
                { s.bus with
                  waiting :=
                    s.bus.waiting
                      ++ [⟨.meterOpen, s.xu.base + 0x2500, 4, leBytes 4 (s.xu.meterPage + 1).toNat, true⟩,
                        ⟨.meterBody, s.xu.base + 0x2504, 2812, page.drop 4, true⟩,
                        ⟨.meterClose, s.xu.base + 0x2500, 4, leBytes 4 (s.xu.meterPage + 2).toNat, true⟩] } } :
              State).settles t)

/-- R218. The order of the arbiter: block fetches and descriptor probes, clip fetches, descriptor writes, the writes of slots,
the writes of pages, and the reads of the scan pass, of the header, of pattern lists and of cue lists. When the port is
free the oldest waiting transfer of the first class that has one is granted, and the others keep their order; a grant
while a transfer is in progress does nothing. A transfer whose completion no unit takes keeps the port until the next
grant (the model's choice, assumption 11). -/
def Obligations.ArbiterGrantsByClassThenAge : Prop :=
  ∀ (s : State) (cls : Job → Nat) (unheard : Transfer → Prop),
    (∀ j, cls j =
      match j with
      | .block _ _ _ _ | .probe _ _ _ => 0
      | .clip _ _ _ => 1
      | .descriptor _ _ => 2
      | .taken _ | .results _ | .code _ | .state _ => 3
      | .pageOpen _ | .pageBody _ | .pageClose _ | .meterOpen | .meterBody | .meterClose => 4
      | .slotRead _ | .header | .patternList _ | .cueList => 5) →
    (∀ x, unheard x ↔ x.live = false ∨
      match x.job with
      | .taken _ | .results _ | .code _ | .pageOpen _ | .pageBody _ | .meterOpen | .meterBody => True
      | _ => False) →
    (∀ y, s.bus.current = some y → ¬unheard y → exec .busGrant s = .next s)
    ∧ ((∀ y, s.bus.current = some y → unheard y) →
        (s.bus.waiting = [] → ∃ t, exec .busGrant s = .next t
          ∧ ({ s with bus := ⟨[], none⟩ } : State).settles t)
        ∧ ∀ (before after : List Transfer) (x : Transfer), s.bus.waiting = before ++ x :: after →
            (∀ y ∈ before, cls x.job < cls y.job) → (∀ y ∈ after, cls x.job ≤ cls y.job) →
            ∃ t, exec .busGrant s = .next t ∧ ({ s with bus := ⟨before ++ after, some x⟩ } : State).settles t)

/-- R215, R216, R193, R137, R136, R181, R18, R19. The end of every event, whatever the command, but for those that move
page states themselves: resets, an event that leaves the area, the header read, and for its own page the end of a
rewrite. A page whose reported values the command changed becomes DIRTY or owes a change, and while ATTACHED begins its
rewrite at once, three writes waiting with the values that stand after the command; a page whose values stand is left
alone; but for resets and a read of NOTICE, LINK is raised exactly by a change of a lock state, a pass state, a slot
count or a mismatch flag, and ALARM exactly by one of the stage, the silenced flag or the active route. No step leaves
a page DIRTY while ATTACHED. That the postings are drawn from the values before and after, and that they begin at the
end of the event, are the model's choice (assumptions 8 and 9). That sums of addresses are taken modulo 2^64 is the
model's (assumption 26). -/
def Obligations.EventsPostWhatTheyChange : Prop :=
  (∀ (c : Instr) (s t : State), (s.xu.attach = .attached → ∀ p, (s.xu.pages.get p).rewrite ≠ .dirty) →
    exec c s = .next t → t.xu.attach = .attached → ∀ p, (t.xu.pages.get p).rewrite ≠ .dirty)
  ∧ ∀ (c : Instr) (s t : State) (level : ZoneRec → Nat) (slots : State → Fin 8 → SlotCount) (link alarm : Bool)
      (changed : StatusPage → Prop),
      (s.xu.attach = .attached → ∀ p, (s.xu.pages.get p).rewrite ≠ .dirty) → exec c s = .next t →
      (∀ z, level z =
        if z.target.ev ≠ 0 then z.current.ev else if z.target.alarm ≠ 0 then z.current.alarm
        else if z.target.live ≠ 0 then z.current.live else if z.target.prog ≠ 0 then z.current.prog
        else if z.target.show_ ≠ 0 then z.current.show_ else if z.target.bg ≠ 0 then z.current.bg else 0) →
      (∀ x i, slots x i = if h : i.val < 2 then x.lp.slots.get ⟨i.val, h⟩ else ⟨0, false⟩) →
      (link = true ↔ ∃ i, (s.lp.rx.get i).lock ≠ (t.lp.rx.get i).lock ∨ (s.lp.rx.get i).pass ≠ (t.lp.rx.get i).pass
        ∨ slots s i ≠ slots t i) →
      (alarm = true ↔ s.mau.stage ≠ t.mau.stage ∨ s.mau.silenced ≠ t.mau.silenced ∨ s.mau.active ≠ t.mau.active) →
      (changed .general ↔ s.xu.mode ≠ t.xu.mode ∨ s.xu.refusals ≠ t.xu.refusals
        ∨ s.mau.published ≠ t.mau.published ∨ s.mau.silenced ≠ t.mau.silenced ∨ s.mau.active ≠ t.mau.active
        ∨ s.mau.passA ≠ t.mau.passA ∨ s.mau.passB ≠ t.mau.passB ∨ s.mau.ignored ≠ t.mau.ignored
        ∨ s.su.theShow.state.code ≠ t.su.theShow.state.code
        ∨ s.su.theShow.nextCue.map Cue.number ≠ t.su.theShow.nextCue.map Cue.number
        ∨ s.su.theShow.clock ≠ t.su.theShow.clock ∨ s.su.theShow.dropped ≠ t.su.theShow.dropped
        ∨ ∃ z, (s.zm.zones.get z).holders.alarm ≠ (t.zm.zones.get z).holders.alarm
          ∨ (t.zm.zones.get z).holders.alarm ≠ none ∧ (s.zm.zones.get z).line ≠ (t.zm.zones.get z).line) →
      (changed .link ↔ link = true ∨ ∃ i, (s.lp.rx.get i).score ≠ (t.lp.rx.get i).score
        ∨ (s.lp.rx.get i).crcErrors ≠ (t.lp.rx.get i).crcErrors ∨ (s.lp.rx.get i).seqErrors ≠ (t.lp.rx.get i).seqErrors
        ∨ (s.lp.rx.get i).lockLosses ≠ (t.lp.rx.get i).lockLosses) →
      (changed .zone ↔ ∃ z, (s.zm.zones.get z).line ≠ (t.zm.zones.get z).line
        ∨ (s.zm.zones.get z).holders ≠ (t.zm.zones.get z).holders
        ∨ (s.zm.zones.get z).override ≠ (t.zm.zones.get z).override
        ∨ level (s.zm.zones.get z) ≠ level (t.zm.zones.get z) ∨ (s.zm.zones.get z).clips ≠ (t.zm.zones.get z).clips) →
      (changed .station ↔ ∃ st, (s.ic.stations.get st).standing.code ≠ (t.ic.stations.get st).standing.code
        ∨ (s.ic.stations.get st).standing.with_ ≠ (t.ic.stations.get st).standing.with_
        ∨ s.ic.indicator st ≠ t.ic.indicator st
        ∨ (s.ic.stations.get st).waiting.length ≠ (t.ic.stations.get st).waiting.length) →
      (changed .stream ↔ ∃ k, (s.su.channels.get k).state.code ≠ (t.su.channels.get k).state.code
        ∨ (s.su.channels.get k).cursor ≠ (t.su.channels.get k).cursor
        ∨ (s.su.channels.get k).fader.current ≠ (t.su.channels.get k).fader.current
        ∨ (s.su.channels.get k).starves ≠ (t.su.channels.get k).starves
        ∨ (s.su.channels.get k).lates ≠ (t.su.channels.get k).lates) →
      (changed .show ↔ s.su.theShow.state ≠ t.su.theShow.state
        ∨ s.su.theShow.nextCue.map Cue.number ≠ t.su.theShow.nextCue.map Cue.number
        ∨ s.su.theShow.clock ≠ t.su.theShow.clock ∨ s.su.theShow.cues ≠ t.su.theShow.cues) →
      ((match c with
          | .powerOnReset | .hardwareReset | .softwareReset | .noticeRead => False
          | .registerWrite .control v => v.getLsbD 2 = false
          | _ => True) →
        t.xu.notice.getLsbD 3 = (s.xu.notice.getLsbD 3 || link) ∧ t.xu.notice.getLsbD 2 = (s.xu.notice.getLsbD 2 || alarm))
      ∧ ∀ (p : StatusPage) (a : Addr) (size : Nat) (g : PageState), g = s.xu.pages.get p.ix →
          (match c with
            | .powerOnReset | .hardwareReset | .softwareReset | .areaBusError | .headerReadComplete _ => False
            | .registerWrite .control v => v.getLsbD 2 = false ∧ (v.getLsbD 0 = true ∨ s.xu.attach = .detached)
            | .detach => s.xu.attach = .detached
            | .rewriteEnd => s.inProgress ≠ some (.pageClose p)
            | _ => True) →
          (p, a, size) ∈ [(StatusPage.general, s.xu.base + 0x1100, 256), (.link, s.xu.base + 0x1200, 256),
            (.zone, s.xu.base + 0x1300, 2304), (.station, s.xu.base + 0x1C00, 1280),
            (.stream, s.xu.base + 0x2100, 768), (.show, s.xu.base + 0x2400, 256)] →
          (¬changed p → t.xu.pages.get p.ix = g)
          ∧ (changed p →
            (g.rewrite = .writing ∨ g.rewrite = .writingOwed → t.xu.pages.get p.ix = ⟨.writingOwed, g.count⟩)
            ∧ (g.rewrite = .clean ∨ g.rewrite = .dirty →
              (s.xu.attach ≠ .attached → t.xu.pages.get p.ix = ⟨.dirty, g.count⟩)
              ∧ (s.xu.attach = .attached → t.xu.pages.get p.ix = ⟨.writing, g.count + 2⟩
                ∧ ∃ before after, t.bus.waiting = before
                  ++ [⟨.pageOpen p, a, 4, leBytes 4 (g.count + 1).toNat, true⟩,
                    ⟨.pageBody p, a + 4, size - 4,
                      (pageBytes { t with xu := { t.xu with pages := s.xu.pages } } p).drop 4, true⟩,
                    ⟨.pageClose p, a, 4, leBytes 4 (g.count + 2).toNat, true⟩]
                  ++ after)))

/-! ## Requests -/

/-- R197, R199, R201, R196. SET_MODE: an unknown code is refused FORMAT, detail 1; the mode in force is answered with
nothing changed; out of SERVICE only STANDBY is taken, NORMAL and NIGHT being refused STATE, detail 1; any other change
is made, published to ZM, and hands AU, IS and SU their teardown parts on entry into STANDBY or SERVICE, and on leaving
SERVICE their job reset parts and ZM's after them. -/
def Obligations.SetModeChangesModeAndHandsOutParts : Prop :=
  ∀ (s : State) (slot : SlotIx) (p : SetModeParams), s.xu.dispatch = some (slot, .setMode p) →
    (3 < p.mode.toNat → ∃ t, exec (.setMode slot p) s = .next t ∧ s.answers t slot (.refused .format 1))
    ∧ ∀ m : Mode, m.code = p.mode.toNat →
        (m = s.xu.mode → ∃ t, exec (.setMode slot p) s = .next t ∧ s.answers t slot (.done .ok (.modes m m)))
        ∧ (s.xu.mode = .service → (m = .normal ∨ m = .night) →
            ∃ t, exec (.setMode slot p) s = .next t ∧ s.answers t slot (.refused .state 1))
        ∧ (m ≠ s.xu.mode → (s.xu.mode = .service → m = .standby) →
            ∀ parts, parts =
                (if m = .standby ∨ m = .service then [XuPart.teardown] else [])
                  ++ (if s.xu.mode = .service then [XuPart.jobReset] else []) →
              ∃ t, exec (.setMode slot p) s = .next t
                ∧ ({ s with
                    xu := { s.xu with mode := m }
                    net :=
                      { s.net with
                        xuToAu := s.net.xuToAu ++ parts
                        xuToIs := s.net.xuToIs ++ parts
                        xuToSu := s.net.xuToSu ++ parts
                        xuToZm := s.net.xuToZm ++ .mode :: if s.xu.mode = .service then [.jobReset] else [] } } :
                  State).answers t slot (.done .ok (.modes s.xu.mode m)))

/-- R22, R2, R13, R17. ZONE_SET: a zone above 63 is refused FORMAT, detail 1; otherwise the settings of that zone, and of no
other, become the parameters clamped, its targets and override bit follow, and the slot is DONE, OK. -/
def Obligations.ZoneSetWritesOneZone : Prop :=
  ∀ (s : State) (slot : SlotIx) (p : ZoneSetParams), s.xu.dispatch = some (slot, .zoneSet p) → s.net.xuToZm = [] →
    (63 < p.zone.toNat → ∃ t, exec (.zoneSet slot p) s = .next t ∧ s.answers t slot (.refused .format 1))
    ∧ ∀ (z : Zone) (w : ZoneSettings), z.val = p.zone.toNat →
        w =
          ⟨⟨p.flags.getLsbD 0, p.flags.getLsbD 1, p.flags.getLsbD 2, p.flags.getLsbD 3⟩, min 32768 p.master.toNat,
            min 32768 p.announce.toNat, min 32768 p.alarm.toNat, min 32768 p.duck.toNat,
            min 32768 p.alarmDuck.toNat, min 32768 p.nightCap.toNat, max 1 (min 32768 p.slew.toNat),
            max 1 (min 3 p.threshold.toNat)⟩ →
        ∃ (t : State) (zm : Zm), exec (.zoneSet slot p) s = .next t
          ∧ ({ s with zm := zm } : State).answers t slot (.done .ok .none)
          ∧ zm = { s.zm with zones := zm.zones } ∧ (∀ y, y ≠ z → zm.zones.get y = s.zm.zones.get y)
          ∧ zm.zones.get z =
              { s.zm.zones.get z with
                settings := w
                override := overrideBit w.threshold (s.zm.zones.get z).holders
                target := ({ s.zm.zones.get z with settings := w } : ZoneRec).targets s.xu.mode s.zm.silenced
                  (w.flags.theatre && (List.finRange 16).any fun c =>
                    (s.zm.streams.get c).running && (s.zm.streams.get c).cls = .show
                      && decide ((s.zm.cross.get c).get z ≠ 0)) }

/-- R2, R13, R17, R20, R23, R24, R209. ZONE_FILL writes the one setting its selector names, clamped, in every zone of the set
and in no other, the targets and the override bits of those zones following, and reports how many; ZONESET_DEFINE
writes one entry of the zone-set table; a set above 31 is refused FORMAT, detail 1, and a selector above 8 FORMAT,
detail 2. That the set is checked first where both are out of range is the model's (assumption 46). -/
def Obligations.ZoneFillAndZonesetDefine : Prop :=
  ∀ (s : State) (slot : SlotIx), s.net.xuToZm = [] →
    (∀ p : ZoneFillParams, s.xu.dispatch = some (slot, .zoneFill p) →
      (31 < p.set.toNat → ∃ t, exec (.zoneFill slot p) s = .next t ∧ s.answers t slot (.refused .format 1))
      ∧ ∀ k : SetIx, k.val = p.set.toNat →
          (8 < p.selector.toNat → ∃ t, exec (.zoneFill slot p) s = .next t ∧ s.answers t slot (.refused .format 2))
          ∧ (p.selector.toNat ≤ 8 → ∃ (t : State) (zm : Zm), exec (.zoneFill slot p) s = .next t
              ∧ ({ s with zm := zm } : State).answers t slot (.done .ok (.zones (maskSize (s.zm.sets.get k).members)))
              ∧ zm = { s.zm with zones := zm.zones }
              ∧ ∀ z : Zone,
                  (inMask (s.zm.sets.get k).members z = false → zm.zones.get z = s.zm.zones.get z)
                  ∧ (inMask (s.zm.sets.get k).members z = true → ∀ w v new, w = (s.zm.zones.get z).settings →
                      v = p.value.toNat →
                      new =
                        [{ w with flags := ⟨p.value.getLsbD 0, p.value.getLsbD 1, p.value.getLsbD 2,
                            p.value.getLsbD 3⟩ },
                          { w with master := min 32768 v }, { w with announce := min 32768 v },
                          { w with alarm := min 32768 v }, { w with duck := min 32768 v },
                          { w with alarmDuck := min 32768 v }, { w with nightCap := min 32768 v },
                          { w with slew := max 1 (min 32768 v) },
                          { w with threshold := max 1 (min 3 v) }].getD p.selector.toNat w →
                      zm.zones.get z =
                        { s.zm.zones.get z with
                          settings := new, override := overrideBit new.threshold (s.zm.zones.get z).holders
                          target := ({ s.zm.zones.get z with settings := new } : ZoneRec).targets s.xu.mode
                            s.zm.silenced (zm.showActive z) })))
    ∧ ∀ p : ZonesetDefineParams, s.xu.dispatch = some (slot, .zonesetDefine p) →
        (31 < p.set.toNat → ∃ t, exec (.zonesetDefine slot p) s = .next t ∧ s.answers t slot (.refused .format 1))
        ∧ ∀ k : SetIx, k.val = p.set.toNat → ∃ t, exec (.zonesetDefine slot p) s = .next t
            ∧ ({ s with zm := { s.zm with sets := s.zm.sets.set k ⟨p.members, decide (p.chime ≠ 0)⟩ } } :
                State).answers t slot (.done .ok .none)

/-- R35, R13, R15. ROUTE_SET writes the crosspoint of one stream to every zone of a set, clamped, and recomputes the targets
of those zones; a stream above 15 is refused FORMAT, detail 1, and a set above 31 FORMAT, detail 2. That the stream
is checked first where both are out of range is the model's (assumption 46). -/
def Obligations.RouteSetWritesCrosspoints : Prop :=
  ∀ (s : State) (slot : SlotIx) (p : RouteSetParams), s.xu.dispatch = some (slot, .routeSet p) → s.net.xuToZm = [] →
    (15 < p.stream.toNat → ∃ t, exec (.routeSet slot p) s = .next t ∧ s.answers t slot (.refused .format 1))
    ∧ (p.stream.toNat ≤ 15 → 31 < p.set.toNat →
        ∃ t, exec (.routeSet slot p) s = .next t ∧ s.answers t slot (.refused .format 2))
    ∧ ∀ (c : Stream) (k : SetIx), c.val = p.stream.toNat → k.val = p.set.toNat →
        ∃ (t : State) (zm : Zm), exec (.routeSet slot p) s = .next t
          ∧ ({ s with zm := zm } : State).answers t slot (.done .ok (.zones (maskSize (s.zm.sets.get k).members)))
          ∧ zm = { s.zm with zones := zm.zones, cross := zm.cross }
          ∧ (∀ d z, (zm.cross.get d).get z =
              if d = c ∧ inMask (s.zm.sets.get k).members z then min 32768 p.gain.toNat else (s.zm.cross.get d).get z)
          ∧ ∀ z, zm.zones.get z =
              if inMask (s.zm.sets.get k).members z then
                { s.zm.zones.get z with
                  target := (s.zm.zones.get z).targets s.xu.mode s.zm.silenced (zm.showActive z) }
              else s.zm.zones.get z

/-- R48, R49, R50, R51. ANNOUNCE: its own checks in order; the night filter takes CABIN zones without NIGHT_PERMIT from a
request without URGENT in NIGHT; a request left with no zone is DONE, FILTERED; a full list refuses FULL; otherwise
an entry joins the tail of the wait list, an examination is pending, and the slot stays as it was. -/
def Obligations.AnnounceJoinsTheWaitList : Prop :=
  ∀ (s : State) (slot : SlotIx) (p : AnnounceParams), s.xu.dispatch = some (slot, .announce p) → s.au.exam = none →
    s.net.xuToAu = [] →
    (p.mask = 0 → ∃ t, exec (.announce slot p) s = .next t ∧ s.answers t slot (.refused .format 1))
    ∧ (p.mask ≠ 0 → 1 < p.policy.toNat →
        ∃ t, exec (.announce slot p) s = .next t ∧ s.answers t slot (.refused .format 5))
    ∧ (p.mask ≠ 0 → p.policy.toNat ≤ 1 → p.clipAddr.toNat % 64 ≠ 0 →
        ∃ t, exec (.announce slot p) s = .next t ∧ s.answers t slot (.refused .align 2))
    ∧ (p.mask ≠ 0 → p.policy.toNat ≤ 1 → p.clipAddr.toNat % 64 = 0 → ∀ gone : ZoneMask,
        (∀ z, inMask gone z = true ↔ inMask p.mask z = true ∧ s.xu.mode = .night ∧ p.urgent = 0
          ∧ (s.zm.zones.get z).settings.flags.cabin = true ∧ (s.zm.zones.get z).settings.flags.nightPermit = false) →
        (p.mask &&& ~~~gone = 0 →
          ∃ t, exec (.announce slot p) s = .next t ∧ s.answers t slot (.done .filtered (.announcement 0 0 0 0)))
        ∧ (p.mask &&& ~~~gone ≠ 0 → 16 ≤ s.au.waitList.length →
          ∃ t, exec (.announce slot p) s = .next t ∧ s.answers t slot (.refused .full 0))
        ∧ (p.mask &&& ~~~gone ≠ 0 → s.au.waitList.length < 16 → ∃ t, exec (.announce slot p) s = .next t
            ∧ ({ s with
                au :=
                  { s.au with
                    examPending := true
                    waitList :=
                      s.au.waitList ++
                        [⟨.slot slot, p.mask &&& ~~~gone, gone, p.clipAddr, max 1 (min 600000 p.clipLen.toNat),
                          decide (p.chime ≠ 0), if p.policy = 0 then .waitAll else .partly,
                          if p.expiry = 0 then none else some (min 600000 p.expiry.toNat)⟩] } } : State).takes t slot))

/-- R65, R63, R64. ANNOUNCE_CANCEL: a slot above 63 is refused FORMAT; a waiting entry of the slot leaves the list and its
slot completes CANCELLED with nothing played; a player of the slot stops CANCELLED and releases its zones, its slot
completing with what was admitted, heard and played; otherwise the request is refused NOTARGET. -/
def Obligations.AnnounceCancelEndsTheAnnouncement : Prop :=
  ∀ (s : State) (slot : SlotIx) (p : AnnounceCancelParams), s.xu.dispatch = some (slot, .announceCancel p) →
    s.au.exam = none → s.net.xuToAu = [] →
    (63 < p.slot.toNat → ∃ t, exec (.announceCancel slot p) s = .next t ∧ s.answers t slot (.refused .format 1))
    ∧ ∀ k : SlotIx, k.val = p.slot.toNat →
        (∀ before e after, s.au.waitList = before ++ e :: after → e.origin = .slot k →
          (∀ x ∈ before, x.origin ≠ .slot k) → ∃ t, exec (.announceCancel slot p) s = .next t
            ∧ (({ s with au := { s.au with waitList := before ++ after } } : State).completed k
                (.done .cancelled (.announcement 0 0 0 0))).answers t slot (.done .ok .none))
        ∧ ((∀ e ∈ s.au.waitList, e.origin ≠ .slot k) →
            (∀ (q : Player) (r : PlayerRec), r = s.au.players.get q → r.phase ≠ .free → r.origin = some (.slot k) →
              (∀ i < q, (s.au.players.get i).phase = .free ∨ (s.au.players.get i).origin ≠ some (.slot k)) →
              ∃ t, exec (.announceCancel slot p) s = .next t
                ∧ (({ s with
                      au :=
                        { s.au with
                          examPending := true
                          players := s.au.players.set q { r with phase := .free, gen := none } }
                      net :=
                        { s.net with auToZm := s.net.auToZm ++ [.release (.programmed q) r.admitted] } } :
                    State).completed k
                    (.done .cancelled (.announcement r.admitted (r.admitted &&& ~~~r.interrupted) r.played
                      r.late))).answers t slot (.done .ok .none))
            ∧ ((∀ q, (s.au.players.get q).phase = .free ∨ (s.au.players.get q).origin ≠ some (.slot k)) →
              ∃ t, exec (.announceCancel slot p) s = .next t ∧ s.answers t slot (.refused .noTarget 1)))

/-- R95, R86, R90, R92, R96. STATION_SET stores the three settings of one station, clamped, posts its listen gain, and takes the
station off a party line it is no longer a member of, the caller who has waited longest then calling it; INTERCOM_CONFIG
stores the three times, clamped, and is never refused. That the listen gain is posted before the standing, and that the
station is checked before the authority where both are out of range, are the model's (assumptions 45 and 46). -/
def Obligations.StationSetAndIntercomConfig : Prop :=
  ∀ (s : State) (slot : SlotIx), s.ic.awaiting = none → s.net.xuToIs = [] →
    (∀ p : IntercomConfigParams, s.xu.dispatch = some (slot, .intercomConfig p) →
      ∃ t, exec (.intercomConfig slot p) s = .next t
        ∧ ({ s with
            ic :=
              { s.ic with
                ringTimeout := max 1000 (min 120000 p.ring.toNat)
                waitTimeout := max 1000 (min 300000 p.wait.toNat)
                pageLimit := max 1000 (min 600000 p.page.toNat) } } : State).answers t slot (.done .ok .none))
    ∧ ∀ p : StationSetParams, s.xu.dispatch = some (slot, .stationSet p) →
        (63 < p.station.toNat → ∃ t, exec (.stationSet slot p) s = .next t ∧ s.answers t slot (.refused .format 1))
        ∧ (p.station.toNat ≤ 63 → 2 < p.authority.toNat →
            ∃ t, exec (.stationSet slot p) s = .next t ∧ s.answers t slot (.refused .format 2))
        ∧ ∀ (st : Station) (a : Authority) (r : StationRec), st.val = p.station.toNat →
            [Authority.crew, .officer, .bridge][p.authority.toNat]? = some a →
            r =
              { s.ic.stations.get st with
                authority := a, groups := p.groups.setWidth 8, listen := min 32768 p.listen.toNat } →
            ((∀ g, r.standing = .group g → r.groups.getLsbD g.val = true) →
              ∃ t, exec (.stationSet slot p) s = .next t
                ∧ ({ s with
                    ic := { s.ic with stations := s.ic.stations.set st r }
                    net := { s.net with isToZm := s.net.isToZm ++ [.listen st r.listen] } } : State).answers t slot
                    (.done .ok .none))
            ∧ (∀ g, r.standing = .group g → r.groups.getLsbD g.val = false → s.callersWait st →
                ∃ t, exec (.stationSet slot p) s = .next t
                  ∧ (({ s with
                        ic := { s.ic with stations := s.ic.stations.set st { r with standing := .idle .quiet } }
                        net :=
                          { s.net with isToZm := s.net.isToZm ++ [.listen st r.listen, .standing st .none] } } :
                        State).served st).answers t slot (.done .ok .none))

/-- R83, R86, R92, R97, R98. CALL_CONNECT joins two IDLE stations in a call, one posting telling ZM of both, and refuses a
station that is out of range, the same or not IDLE with the detail of that station; CALL_RELEASE ends what the station
is in as its CLEAR would, whoever waits on it or its partner being served, and is refused STATE, detail 1, for a
station OFFLINE or IDLE. That of two standings that go the released station's is posted first is the model's (assumption
45). -/
def Obligations.CallConnectAndCallRelease : Prop :=
  ∀ (s : State) (slot : SlotIx), s.ic.awaiting = none → s.net.xuToIs = [] →
    (∀ p : CallConnectParams, s.xu.dispatch = some (slot, .callConnect p) →
      (63 < p.a.toNat → ∃ t, exec (.callConnect slot p) s = .next t ∧ s.answers t slot (.refused .format 1))
      ∧ (p.a.toNat ≤ 63 → (63 < p.b.toNat ∨ p.b = p.a) →
          ∃ t, exec (.callConnect slot p) s = .next t ∧ s.answers t slot (.refused .format 2))
      ∧ ∀ a b : Station, a.val = p.a.toNat → b.val = p.b.toNat → a ≠ b →
          ((∀ n, (s.ic.stations.get a).standing ≠ .idle n) →
            ∃ t, exec (.callConnect slot p) s = .next t ∧ s.answers t slot (.refused .state 1))
          ∧ ((∃ n, (s.ic.stations.get a).standing = .idle n) → (∀ n, (s.ic.stations.get b).standing ≠ .idle n) →
            ∃ t, exec (.callConnect slot p) s = .next t ∧ s.answers t slot (.refused .state 2))
          ∧ ((∃ n, (s.ic.stations.get a).standing = .idle n) → (∃ n, (s.ic.stations.get b).standing = .idle n) →
            ∃ t, exec (.callConnect slot p) s = .next t
              ∧ (((s.standingSet a (.talking b)).standingSet b (.talking a)).isSends [.talking a b]).answers t slot
                  (.done .ok .none)))
    ∧ ∀ p : CallReleaseParams, s.xu.dispatch = some (slot, .callRelease p) →
        (63 < p.station.toNat → ∃ t, exec (.callRelease slot p) s = .next t ∧ s.answers t slot (.refused .format 1))
        ∧ ∀ a : Station, a.val = p.station.toNat →
            ((s.ic.stations.get a).standing = .offline ∨ (∃ n, (s.ic.stations.get a).standing = .idle n) →
              ∃ t, exec (.callRelease slot p) s = .next t ∧ s.answers t slot (.refused .state 1))
            ∧ ∀ u, s.leaves u a → ∃ t, exec (.callRelease slot p) s = .next t ∧ u.answers t slot (.done .ok .none)

/-- R135, R131. ALARM_CONFIG stores the two values clamped, restarts the run and clears the revert count, and is refused
STATE while a stage or a test is in force. ALARM_TEST, by its checks in order: pattern FORMAT 1, set FORMAT 2, STATE
while a stage or a test is in force, done at once for an empty set, and otherwise a test that records its slot, claims
the set for ALARM-TEST and starts the tone on its pattern. -/
def Obligations.AlarmConfigAndAlarmTest : Prop :=
  ∀ (s : State) (slot : SlotIx), s.mau.awaiting = none →
    (∀ p : AlarmConfigParams, s.xu.dispatch = some (slot, .alarmConfig p) →
      (s.mau.stage ≠ .idle ∨ s.mau.test ≠ none →
        ∃ t, exec (.alarmConfig slot p) s = .next t ∧ s.answers t slot (.refused .state 0))
      ∧ (s.mau.stage = .idle → s.mau.test = none → ∃ t, exec (.alarmConfig slot p) s = .next t
          ∧ ({ s with
              mau :=
                { s.mau with
                  k := max 2 (min 64 p.k.toNat), r := max 100 (min 10000 p.r.toNat), run := ⟨none, 0, false⟩
                  revert := 0 } } : State).answers t slot (.done .ok .none)))
    ∧ ∀ p : AlarmTestParams, s.xu.dispatch = some (slot, .alarmTest p) →
        (2 < p.pattern.toNat → ∃ t, exec (.alarmTest slot p) s = .next t ∧ s.answers t slot (.refused .format 1))
        ∧ (p.pattern.toNat ≤ 2 → 31 < p.set.toNat →
            ∃ t, exec (.alarmTest slot p) s = .next t ∧ s.answers t slot (.refused .format 2))
        ∧ ∀ (i : PatIx) (k : SetIx), i.val = p.pattern.toNat → i.val ≤ 2 → k.val = p.set.toNat →
            (s.mau.stage ≠ .idle ∨ s.mau.test ≠ none →
              ∃ t, exec (.alarmTest slot p) s = .next t ∧ s.answers t slot (.refused .state 0))
            ∧ (s.mau.stage = .idle → s.mau.test = none →
                ((s.zm.sets.get k).members = 0 →
                  ∃ t, exec (.alarmTest slot p) s = .next t ∧ s.answers t slot (.done .ok (.test 0 0)))
                ∧ ((s.zm.sets.get k).members ≠ 0 → ∃ t, exec (.alarmTest slot p) s = .next t
                    ∧ ({ s with
                        mau :=
                          { s.mau with
                            test := some ⟨some slot, i, 0, max 1 (min 600000 p.duration.toNat), 0⟩
                            gen := some (Gen.start s.mau.store i .endless)
                            awaiting := some .testStart }
                        net :=
                          { s.net with
                            mauToZm :=
                              s.net.mauToZm ++ [.claim (.alarm .test) (.zones (s.zm.sets.get k).members) .any none] } } :
                        State).takes t slot))

/-- R140, R142, R143, R144, R208, R210. PATTERN_LOAD is refused for a slot above 3, an unaligned list, or a slot in use (0 to 2
by a stage or a test, 3 by a chime), and otherwise records the load and issues one read of 272 bytes; at the read's
completion the load record goes, and a bus error refuses BUS, a bad count or code FORMAT, a slot in use by then STATE,
and otherwise the steps the list counts are stored, clamped, and their count and pass length reported. A load whose slot a software reset took does the same and answers no slot. -/
def Obligations.PatternLoadReadsAndStores : Prop :=
  ∀ (s : State) (used : PatIx → Prop), s.mau.awaiting = none →
    (∀ i, used i ↔
      if i = 3 then
        (∃ p, (s.au.players.get p).phase = .chime) ∨ ∃ c p, s.ic.channels.get c = some p ∧ p.phase = .chime
      else s.mau.stage ≠ .idle ∨ s.mau.test ≠ none) →
    (∀ (slot : SlotIx) (p : PatternLoadParams), s.xu.dispatch = some (slot, .patternLoad p) →
      (3 < p.slot.toNat → ∃ t, exec (.patternLoad slot p) s = .next t ∧ s.answers t slot (.refused .format 1))
      ∧ ∀ i : PatIx, i.val = p.slot.toNat →
          (p.list.toNat % 64 ≠ 0 → ∃ t, exec (.patternLoad slot p) s = .next t ∧ s.answers t slot (.refused .align 2))
          ∧ (p.list.toNat % 64 = 0 → used i →
              ∃ t, exec (.patternLoad slot p) s = .next t ∧ s.answers t slot (.refused .state 0))
          ∧ (p.list.toNat % 64 = 0 → ¬used i → ∃ t, exec (.patternLoad slot p) s = .next t
              ∧ ({ s with
                  mau :=
                    { s.mau with
                      loads := s.mau.loads ++ [⟨s.mau.nextLoad, some slot, i, p.list⟩]
                      nextLoad := s.mau.nextLoad + 1 }
                  bus :=
                    { s.bus with
                      waiting := s.bus.waiting ++ [⟨.patternList s.mau.nextLoad, p.list, 272, [], true⟩] } } :
                  State).takes t slot))
    ∧ ∀ (l : PatternLoad) (u : State) (ends : State → Completion → State), s.inProgress = some (.patternList l.id) →
        (s.mau.loads.find? fun x => decide (x.id = l.id)) = some l →
        (∀ v c, ends v c = match l.origin with | some slot => v.completed slot c | none => v) →
        u =
          { s with
            mau := { s.mau with loads := s.mau.loads.filter fun x => decide (x.id ≠ l.id) }
            bus := { s.bus with current := none } } →
        (∃ t, exec (.patternListComplete .busError) s = .next t ∧ (ends u (.refused .bus 2)).settles t)
        ∧ ∀ (b : Table 272 Byte) (count repeats : Nat) (kind wave level freq duration : Nat → Nat) (steps : List Step),
            bears
              ([(0, 1, count), (1, 1, repeats)] ++ (List.range 16).flatMap fun i =>
                [(16 + 16 * i, 1, kind i), (17 + 16 * i, 1, wave i), (18 + 16 * i, 2, level i), (20 + 16 * i, 4, freq i),
                  (24 + 16 * i, 2, duration i)])
              b.toList →
            steps =
              ((List.range count).map fun i =>
                ⟨if kind i = 0 then .on else .gap, if wave i = 0 then .square else .triangle,
                  max 500 (min 80000 (freq i)), min 32768 (level i), max 1 (min 10000 (duration i))⟩) →
            ((count = 0 ∨ 16 < count ∨ ∃ i < count, 1 < kind i ∨ 1 < wave i) →
              ∃ t, exec (.patternListComplete (.data b)) s = .next t ∧ (ends u (.refused .format 2)).settles t)
            ∧ (1 ≤ count → count ≤ 16 → (∀ i < count, kind i ≤ 1 ∧ wave i ≤ 1) →
                (used l.slot → ∃ t, exec (.patternListComplete (.data b)) s = .next t
                  ∧ (ends u (.refused .state 0)).settles t)
                ∧ (¬used l.slot → ∃ t, exec (.patternListComplete (.data b)) s = .next t
                  ∧ (ends { u with mau := { u.mau with store := s.mau.store.set l.slot ⟨repeats, steps⟩ } }
                      (.done .ok (.pattern count (steps.map Step.duration).sum))).settles t))

/-! ## Streams and the show -/

/-- R164, R165, R33, R155, R156. STREAM_SET, by its checks in order (stream FORMAT 1, class FORMAT 2, alignment 3,
STATE 1 unless STOPPED or FAULT), writes the class and the ring of one channel and posts the class. STREAM_START
(stream FORMAT 1, a SHOW channel or one without a ring or one that plays STATE 1, index FORMAT 2) makes one channel
RUNNING with nothing of an earlier start, posts that, and reads the descriptor it starts at. That sums of addresses are
taken modulo 2^64 is the model's (assumption 26). -/
def Obligations.StreamSetAndStreamStart : Prop :=
  ∀ (s : State) (slot : SlotIx), s.net.xuToSu = [] →
    (∀ p : StreamSetParams, s.xu.dispatch = some (slot, .streamSet p) →
      (15 < p.stream.toNat → ∃ t, exec (.streamSet slot p) s = .next t ∧ s.answers t slot (.refused .format 1))
      ∧ ∀ (c : Stream) (r : Chan), c.val = p.stream.toNat → r = s.su.channels.get c →
          (1 < p.cls.toNat → ∃ t, exec (.streamSet slot p) s = .next t ∧ s.answers t slot (.refused .format 2))
          ∧ (p.cls.toNat ≤ 1 → p.base.toNat % 64 ≠ 0 →
              ∃ t, exec (.streamSet slot p) s = .next t ∧ s.answers t slot (.refused .align 3))
          ∧ (p.cls.toNat ≤ 1 → p.base.toNat % 64 = 0 → r.state ≠ .stopped → r.state ≠ .fault →
              ∃ t, exec (.streamSet slot p) s = .next t ∧ s.answers t slot (.refused .state 1))
          ∧ ∀ k : BedClass, (k = .background ∧ p.cls = 0 ∨ k = .show ∧ p.cls = 1) → p.base.toNat % 64 = 0 →
              (r.state = .stopped ∨ r.state = .fault) → ∃ t, exec (.streamSet slot p) s = .next t
                ∧ ({ s with
                    su :=
                      { s.su with
                        channels :=
                          s.su.channels.set c
                            { r with
                              cls := k, ring := some ⟨p.base, max 2 (min 64 p.count.toNat)⟩, cursor := 0, starves := 0
                              lates := 0, state := .stopped } }
                    net := { s.net with suToZm := s.net.suToZm ++ [.streamClass c k] } } : State).answers t slot
                    (.done .ok .none))
    ∧ ∀ p : StreamStartParams, s.xu.dispatch = some (slot, .streamStart p) →
        (15 < p.stream.toNat → ∃ t, exec (.streamStart slot p) s = .next t ∧ s.answers t slot (.refused .format 1))
        ∧ ∀ (c : Stream) (r : Chan), c.val = p.stream.toNat → r = s.su.channels.get c →
            ((r.cls = .show ∨ r.ring = none ∨ r.state ≠ .stopped ∧ r.state ≠ .fault) →
              ∃ t, exec (.streamStart slot p) s = .next t ∧ s.answers t slot (.refused .state 1))
            ∧ ∀ g : Ring, r.cls = .background → r.ring = some g → (r.state = .stopped ∨ r.state = .fault) →
                (g.count ≤ p.index.toNat →
                  ∃ t, exec (.streamStart slot p) s = .next t ∧ s.answers t slot (.refused .format 2))
                ∧ (p.index.toNat < g.count → ∃ t, exec (.streamStart slot p) s = .next t
                    ∧ ({ s with
                        su :=
                          { s.su with
                            channels :=
                              s.su.channels.set c
                                { r with
                                  state := .running, cursor := p.index.toNat, playing := none, next := none, marks := []
                                  probe := some p.index.toNat, stopPending := false
                                  startNumber := r.startNumber + 1
                                  fader := r.fader.fade p.target.toNat p.fade.toNat } }
                        net := { s.net with suToZm := s.net.suToZm ++ [.streamRunning c true] }
                        bus :=
                          { s.bus with
                            waiting :=
                              s.bus.waiting ++
                                [⟨.probe c p.index.toNat (r.startNumber + 1),
                                  g.base + BitVec.ofNat 64 (16 * p.index.toNat), 16, [], true⟩] } } : State).answers t
                        slot (.done .ok .none))

/-- R166, R167, R163, R46. STREAM_STOP and STREAM_LEVEL refuse a stream out of range FORMAT 1 and a SHOW channel STATE
1, STREAM_STOP also a channel that is STOPPED or in FAULT. A stop whose fade takes time sets stop-pending and fades;
one whose fade ends at once stops the channel there, its playing block CONSUMED and the cursor after it. A level
cancels a stop and fades. That sums of addresses are taken modulo 2^64 is the model's (assumption 26). -/
def Obligations.StreamStopAndStreamLevel : Prop :=
  ∀ (s : State) (slot : SlotIx), s.net.xuToSu = [] →
    (∀ p : StreamStopParams, s.xu.dispatch = some (slot, .streamStop p) →
      (15 < p.stream.toNat → ∃ t, exec (.streamStop slot p) s = .next t ∧ s.answers t slot (.refused .format 1))
      ∧ ∀ (c : Stream) (r : Chan), c.val = p.stream.toNat → r = s.su.channels.get c →
          ((r.cls = .show ∨ r.state = .stopped ∨ r.state = .fault) →
            ∃ t, exec (.streamStop slot p) s = .next t ∧ s.answers t slot (.refused .state 1))
          ∧ (r.cls = .background → r.state ≠ .stopped → r.state ≠ .fault → ∀ n : Nat, n = min 60000 p.fade.toNat →
              (n ≠ 0 → r.fader.current ≠ 0 → ∃ t, exec (.streamStop slot p) s = .next t
                ∧ ({ s with
                    su :=
                      { s.su with
                        channels :=
                          s.su.channels.set c
                            { r with
                              stopPending := true
                              fader := ⟨r.fader.current, 0, (r.fader.current + n - 1) / n⟩ } } } : State).answers t slot
                    (.done .ok .none))
              ∧ ((n = 0 ∨ r.fader.current = 0) →
                  (r.playing = none → ∃ t, exec (.streamStop slot p) s = .next t
                    ∧ ({ s with
                        su :=
                          { s.su with
                            channels :=
                              s.su.channels.set c
                                { r with
                                  state := .stopped, next := none, marks := [], probe := none, stopPending := false
                                  fader := ⟨0, 0, 0⟩ } }
                        net :=
                          { s.net with
                            suToZm :=
                              s.net.suToZm ++ if r.state = .running then [.streamRunning c false] else [] } } :
                        State).answers t slot (.done .ok .none))
                  ∧ ∀ (b : Playing) (g : Ring), r.playing = some b → r.ring = some g →
                      ∃ t, exec (.streamStop slot p) s = .next t
                        ∧ ({ s with
                            su :=
                              { s.su with
                                channels :=
                                  s.su.channels.set c
                                    { r with
                                      state := .stopped, cursor := (b.index + 1) % g.count, playing := none
                                      next := none, marks := [], probe := none, stopPending := false
                                      fader := ⟨0, 0, 0⟩ } }
                            net :=
                              { s.net with
                                suToZm :=
                                  s.net.suToZm ++ if r.state = .running then [.streamRunning c false] else [] }
                            bus :=
                              { s.bus with
                                waiting :=
                                  s.bus.waiting ++
                                    [⟨.descriptor c r.startNumber, g.base + BitVec.ofNat 64 (16 * b.index), 1, [0xF8],
                                      true⟩] } } : State).answers t slot (.done .ok .none))))
    ∧ ∀ p : StreamLevelParams, s.xu.dispatch = some (slot, .streamLevel p) →
        (15 < p.stream.toNat → ∃ t, exec (.streamLevel slot p) s = .next t ∧ s.answers t slot (.refused .format 1))
        ∧ ∀ (c : Stream) (r : Chan), c.val = p.stream.toNat → r = s.su.channels.get c →
            (r.cls = .show → ∃ t, exec (.streamLevel slot p) s = .next t ∧ s.answers t slot (.refused .state 1))
            ∧ (r.cls = .background → ∃ t, exec (.streamLevel slot p) s = .next t
                ∧ ({ s with
                    su :=
                      { s.su with
                        channels :=
                          s.su.channels.set c
                            { r with
                              stopPending := false, fader := r.fader.fade p.target.toNat p.fade.toNat } } } :
                    State).answers t slot (.done .ok .none))

/-- R46, R47. A fade takes its target at once when its length is 0 or it already stands there; otherwise it moves by the
smallest step that arrives within its length, straight toward the target, and after that many moves it stands
there. -/
def Obligations.FadesArriveWithinTheirLength : Prop :=
  ∀ (f g : Fader) (target length t n : Nat), g = f.fade target length → t = min 32768 target → n = min 60000 length →
    g.target = t
    ∧ (n = 0 ∨ f.current = t → g = ⟨t, t, 0⟩)
    ∧ (n ≠ 0 → f.current ≠ t →
        g.current = f.current ∧ 0 < g.step
        ∧ (∀ m, t ≤ f.current + m * n → f.current ≤ t + m * n → g.step ≤ m)
        ∧ (∀ k, (Fader.moved^[k] g).current =
            if f.current ≤ t then min t (f.current + k * g.step) else max t (f.current - k * g.step))
        ∧ (Fader.moved^[n] g).current = t)

/-- R168, R169, R170, R208, R210. SHOW_LOAD is refused for an unaligned list (ALIGN 1) and while the show is RUNNING or
HELD or another load is in flight (STATE 0); otherwise it records the load and reads the header of the list. As the
parts arrive, each laid out as R210 gives it, a bus error ends the load BUS, a fault of the list ends it BADLIST (an
action of no kind, of a stream or set out of range, of a stream that is not SHOW), a sound part is followed by the read
of the next 16 bytes, and the last action of the last cue makes the table the show's, LOADED at its first cue. That
sums of addresses are taken modulo 2^64 is the model's (assumption 26). -/
def Obligations.ShowLoadReadsTheCueList : Prop :=
  ∀ s : State,
    (∀ (slot : SlotIx) (p : ShowLoadParams), s.net.xuToSu = [] → s.xu.dispatch = some (slot, .showLoad p) →
      (p.list.toNat % 64 ≠ 0 → ∃ t, exec (.showLoad slot p) s = .next t ∧ s.answers t slot (.refused .align 1))
      ∧ (p.list.toNat % 64 = 0 →
          (s.su.theShow.state = .running ∨ (∃ h, s.su.theShow.state = .held h) ∨ s.su.load ≠ none) →
          ∃ t, exec (.showLoad slot p) s = .next t ∧ s.answers t slot (.refused .state 0))
      ∧ (p.list.toNat % 64 = 0 → s.su.theShow.state ≠ .running → (∀ h, s.su.theShow.state ≠ .held h) → s.su.load = none →
          ∃ t, exec (.showLoad slot p) s = .next t
            ∧ ({ s with
                su := { s.su with load := some ⟨slot, p.list, none, [], none, 0, 0⟩ }
                bus := { s.bus with waiting := s.bus.waiting ++ [⟨.cueList, p.list, 16, [], true⟩] } } : State).takes t
                slot))
    ∧ ∀ (l : ShowLoad) (u : State), s.inProgress = some .cueList → s.su.load = some l →
        u = { s with bus := { s.bus with current := none } } →
        (∃ t, exec (.cueListReadComplete .busError) s = .next t
          ∧ (({ u with su := { u.su with load := none } } : State).completed l.origin (.refused .bus 1)).settles t)
        ∧ ∀ (b : Table 16 Byte) (next : Addr), next = l.list + BitVec.ofNat 64 (l.offset + 16) →
            (∀ n, l.total = none → bears [(0, 2, n)] b.toList →
              ((n = 0 ∨ 256 < n) → ∃ t, exec (.cueListReadComplete (.data b)) s = .next t
                ∧ (({ u with su := { u.su with load := none } } : State).completed l.origin
                    (.refused .badList 1)).settles t)
              ∧ (1 ≤ n → n ≤ 256 → ∃ t, exec (.cueListReadComplete (.data b)) s = .next t
                ∧ ({ u with
                    su := { u.su with load := some { l with total := some n, offset := l.offset + 16 } }
                    bus := { u.bus with waiting := u.bus.waiting ++ [⟨.cueList, next, 16, [], true⟩] } } :
                    State).settles t))
            ∧ (∀ n number trigger actions argument, l.total = some n → l.part = none →
                bears [(0, 2, number), (2, 1, trigger), (3, 1, actions), (4, 4, argument)] b.toList →
                ((2 < trigger ∨ actions = 0 ∨ 4 < actions ∨ ∃ c, l.cues.getLast? = some c ∧ number ≤ c.number) →
                  ∃ t, exec (.cueListReadComplete (.data b)) s = .next t
                    ∧ (({ u with su := { u.su with load := none } } : State).completed l.origin
                        (.refused .badList 1)).settles t)
                ∧ ∀ g : Trigger,
                    (trigger = 0 ∧ g = .go ∨ trigger = 1 ∧ g = .at argument ∨ trigger = 2 ∧ g = .follow argument) →
                    1 ≤ actions → actions ≤ 4 → (∀ c, l.cues.getLast? = some c → c.number < number) →
                    ∃ t, exec (.cueListReadComplete (.data b)) s = .next t
                      ∧ ({ u with
                          su :=
                            { u.su with
                              load :=
                                some
                                  { l with
                                    part := some ⟨number, g, [], actions⟩, offset := l.offset + 16 } }
                          bus := { u.bus with waiting := u.bus.waiting ++ [⟨.cueList, next, 16, [], true⟩] } } :
                          State).settles t)
            ∧ ∀ (n : Nat) (p : CuePart) (holds : Nat → List (Nat × Nat × Nat) → Prop) (showing : Stream → Prop)
                (names : Action → Prop), l.total = some n → l.part = some p →
                (∀ kind fields, holds kind fields ↔ (b.get 0).toNat % 16 = kind ∧ bears fields b.toList) →
                (∀ c, showing c ↔ (s.su.channels.get c).cls = .show) →
                (∀ a, names a ↔
                  match a with
                  | .streamStart c i target fade =>
                    holds 1 [(1, 1, c.val), (2, 1, i), (4, 2, target), (8, 4, fade)] ∧ showing c
                  | .streamStop c fade => holds 2 [(1, 1, c.val), (8, 4, fade)] ∧ showing c
                  | .streamLevel c target fade => holds 3 [(1, 1, c.val), (4, 2, target), (8, 4, fade)] ∧ showing c
                  | .route c k gain => holds 4 [(1, 1, c.val), (2, 1, k.val), (4, 2, gain)]
                  | .clip addr len k chime policy expiry =>
                    holds 5 [(1, 1, k.val), (2, 3, len), (5, 3, expiry), (8, 8, addr.toNat)]
                      ∧ chime = (b.get 0).getLsbD 6 ∧ (policy = .partly ↔ (b.get 0).getLsbD 7 = true)) →
                ((512 ≤ l.actions ∨ ∀ a, ¬names a) →
                  ∃ t, exec (.cueListReadComplete (.data b)) s = .next t
                    ∧ (({ u with su := { u.su with load := none } } : State).completed l.origin
                        (.refused .badList 1)).settles t)
                ∧ ∀ a cues, l.actions < 512 → names a →
                    cues = l.cues ++ [⟨p.number, p.trigger, p.actions ++ [a]⟩] →
                    (1 < p.missing → ∃ t, exec (.cueListReadComplete (.data b)) s = .next t
                      ∧ ({ u with
                          su :=
                            { u.su with
                              load :=
                                some
                                  { l with
                                    part := some { p with actions := p.actions ++ [a], missing := p.missing - 1 }
                                    actions := l.actions + 1, offset := l.offset + 16 } }
                          bus := { u.bus with waiting := u.bus.waiting ++ [⟨.cueList, next, 16, [], true⟩] } } :
                          State).settles t)
                    ∧ (p.missing ≤ 1 → cues.length < n → ∃ t, exec (.cueListReadComplete (.data b)) s = .next t
                      ∧ ({ u with
                          su :=
                            { u.su with
                              load :=
                                some
                                  { l with
                                    part := none, cues := cues, actions := l.actions + 1, offset := l.offset + 16 } }
                          bus := { u.bus with waiting := u.bus.waiting ++ [⟨.cueList, next, 16, [], true⟩] } } :
                          State).settles t)
                    ∧ (p.missing ≤ 1 → n ≤ cues.length →
                        ((s.su.theShow.state = .running ∨ ∃ h, s.su.theShow.state = .held h) →
                          ∃ t, exec (.cueListReadComplete (.data b)) s = .next t
                            ∧ (({ u with su := { u.su with load := none } } : State).completed l.origin
                                (.refused .state 0)).settles t)
                        ∧ (s.su.theShow.state ≠ .running → (∀ h, s.su.theShow.state ≠ .held h) →
                          ∃ t, exec (.cueListReadComplete (.data b)) s = .next t
                            ∧ (({ u with
                                su :=
                                  { u.su with
                                    load := none
                                    theShow :=
                                      { s.su.theShow with
                                        state := .loaded, cues := cues, pointer := some 0, clock := 0
                                        lastFire := 0 } } } : State).completed l.origin
                                (.done .ok (.cues cues.length (l.actions + 1)))).settles t))

/-- R174, R172, R173, R171. SHOW_GO is refused STATE while the published stage is GENERAL or ABANDON, and unless the show is
LOADED or RUNNING. From LOADED the show is RUNNING with its clock at 0; while RUNNING the next cue fires whatever its
trigger. CUE_FIRE, within the firing of a period start, fires the next cue when its trigger holds. A cue that fires
performs its actions in order; then the clock is the last-fire time and the pointer moves on, the show ENDED after
the last cue. That a firing is a standing of the show, begun by a period start, within which each CUE_FIRE is a command
of its own is the model's (assumption 7). -/
def Obligations.ShowGoAndCueFireFireCues : Prop :=
  ∀ (s : State) (w : Show), w = s.su.theShow →
    (∀ slot, s.xu.dispatch = some (slot, .showGo) → s.net.xuToSu = [] →
      ((s.mau.published = .general ∨ s.mau.published = .abandon ∨ (w.state ≠ .loaded ∧ w.state ≠ .running)) →
        ∃ t, exec (.showGo slot) s = .next t ∧ s.answers t slot (.refused .state 0))
      ∧ (s.mau.published ≠ .general → s.mau.published ≠ .abandon → w.state = .loaded →
        ∃ t, exec (.showGo slot) s = .next t
          ∧ ({ s with su := { s.su with theShow := { w with state := .running, clock := 0 } } } : State).answers t slot
              (.done .ok .none)))
    ∧ ∀ (i : Nat) (c : Cue) (v : State), w.pointer = some i → w.cues[i]? = some c →
        v = c.actions.foldl (fun x a => x.act c.number a) s →
        ∀ d, d = v.su.theShow.dropped → w.state = .running →
          (∀ slot, s.xu.dispatch = some (slot, .showGo) → s.net.xuToSu = [] → s.mau.published ≠ .general →
            s.mau.published ≠ .abandon → ∃ t, exec (.showGo slot) s = .next t
              ∧ ({ v with
                  su :=
                    { v.su with
                      theShow :=
                        { w with
                          dropped := d, lastFire := w.clock
                          pointer := if i + 1 < w.cues.length then some (i + 1) else none
                          state := if i + 1 < w.cues.length then .running else .ended } } } : State).answers t slot
                  (.done .ok .none))
          ∧ (w.firing = true →
              (match c.trigger with
                | .go => False
                | .at n => n ≤ w.clock
                | .follow n => min 4294967295 (w.lastFire + n) ≤ w.clock) →
              ∃ t, exec .cueFire s = .next t ∧ ∃ more,
                ({ v with
                  su :=
                    { v.su with
                      theShow :=
                        { w with
                          dropped := d, lastFire := w.clock, firing := more
                          pointer := if i + 1 < w.cues.length then some (i + 1) else none
                          state := if i + 1 < w.cues.length then .running else .ended } } } : State).settles t)

/-- R173, R69, R155, R163, R165, R167, R200. What each action of a cue does: a stream action on a channel that is not
SHOW, a start of one that plays or has no such descriptor, a clip that is not aligned or finds the wait list full are
dropped and counted; the others do what the request of their name does, a stop whose fade ends at once stopping the
channel there. That sums of addresses are taken modulo 2^64 is the model's (assumption 26). -/
def Obligations.CueActionsActOrAreDropped : Prop :=
  ∀ (s x : State) (number : Nat),
    x = { s with
          su := { s.su with theShow := { s.su.theShow with dropped := min 65535 (s.su.theShow.dropped + 1) } } } →
    (∀ (c : Stream) (r : Chan) (i target fade : Nat), r = s.su.channels.get c →
      ((r.cls ≠ .show ∨ (r.state ≠ .stopped ∧ r.state ≠ .fault) ∨ (∀ g, r.ring = some g → g.count ≤ i)) →
        s.act number (.streamStart c i target fade) = x)
      ∧ (r.cls = .show → (r.state = .stopped ∨ r.state = .fault) → ∀ g, r.ring = some g → i < g.count →
        s.act number (.streamStart c i target fade) =
          { s with
            su :=
              { s.su with
                channels :=
                  s.su.channels.set c
                    { r with
                      state := .running, cursor := i, playing := none, next := none, marks := [], probe := some i
                      stopPending := false, startNumber := r.startNumber + 1, fader := r.fader.fade target fade } }
            net := { s.net with suToZm := s.net.suToZm ++ [.streamRunning c true] }
            bus :=
              { s.bus with
                waiting :=
                  s.bus.waiting ++
                    [⟨.probe c i (r.startNumber + 1), g.base + BitVec.ofNat 64 (16 * i), 16, [], true⟩] } })
      ∧ (r.cls ≠ .show → s.act number (.streamStop c fade) = x ∧ s.act number (.streamLevel c target fade) = x)
      ∧ (r.cls = .show → r.state ≠ .running → r.state ≠ .starved → s.act number (.streamStop c fade) = s)
      ∧ (r.cls = .show → (r.state = .running ∨ r.state = .starved) → fade ≠ 0 → r.fader.current ≠ 0 →
        s.act number (.streamStop c fade) =
          { s with
            su :=
              { s.su with
                channels := s.su.channels.set c { r with stopPending := true, fader := r.fader.fade 0 fade } } })
      ∧ (r.cls = .show → (r.state = .running ∨ r.state = .starved) → (fade = 0 ∨ r.fader.current = 0) →
        ∀ (cursor : Nat) (writes : List Transfer),
          (r.playing = none ∧ cursor = r.cursor ∧ writes = []
            ∨ ∃ b g, r.playing = some b ∧ r.ring = some g ∧ cursor = (b.index + 1) % g.count
              ∧ writes =
                [⟨.descriptor c r.startNumber, g.base + BitVec.ofNat 64 (16 * b.index), 1, [0xF8], true⟩]) →
          s.act number (.streamStop c fade) =
            { s with
              su :=
                { s.su with
                  channels :=
                    s.su.channels.set c
                      { r with
                        state := .stopped, cursor := cursor, playing := none, next := none, marks := [], probe := none
                        stopPending := false, fader := ⟨0, 0, 0⟩ } }
              net :=
                { s.net with
                  suToZm := s.net.suToZm ++ if r.state = .running then [.streamRunning c false] else [] }
              bus := { s.bus with waiting := s.bus.waiting ++ writes } })
      ∧ (r.cls = .show → s.act number (.streamLevel c target fade) =
          { s with
            su :=
              { s.su with
                channels :=
                  s.su.channels.set c { r with stopPending := false, fader := r.fader.fade target fade } } }))
    ∧ (∀ (c : Stream) (k : SetIx) (gain : Nat) (t : State), t = s.act number (.route c k gain) →
        t = { s with zm := { s.zm with zones := t.zm.zones, cross := t.zm.cross } }
        ∧ (∀ d z, (t.zm.cross.get d).get z =
            if d = c ∧ inMask (s.zm.sets.get k).members z then min 32768 gain else (s.zm.cross.get d).get z)
        ∧ ∀ z, t.zm.zones.get z =
            if inMask (s.zm.sets.get k).members z then
              { s.zm.zones.get z with
                target := (s.zm.zones.get z).targets s.xu.mode s.zm.silenced (t.zm.showActive z) }
            else s.zm.zones.get z)
    ∧ ∀ (addr : Addr) (len : Nat) (k : SetIx) (chime : Bool) (policy : Policy) (expiry : Nat) (target gone : ZoneMask),
        (∀ z, inMask gone z = true ↔ inMask (s.zm.sets.get k).members z = true ∧ s.xu.mode = .night
          ∧ (s.zm.zones.get z).settings.flags.cabin = true ∧ (s.zm.zones.get z).settings.flags.nightPermit = false) →
        target = (s.zm.sets.get k).members &&& ~~~gone →
        ((s.xu.mode = .standby ∨ s.xu.mode = .service) → s.act number (.clip addr len k chime policy expiry) = s)
        ∧ ((s.xu.mode = .normal ∨ s.xu.mode = .night) →
            (addr.toNat % 64 ≠ 0 → s.act number (.clip addr len k chime policy expiry) = x)
            ∧ (addr.toNat % 64 = 0 → target = 0 → s.act number (.clip addr len k chime policy expiry) = s)
            ∧ (addr.toNat % 64 = 0 → target ≠ 0 → 16 ≤ s.au.waitList.length →
                s.act number (.clip addr len k chime policy expiry) = x)
            ∧ (addr.toNat % 64 = 0 → target ≠ 0 → s.au.waitList.length < 16 →
                s.act number (.clip addr len k chime policy expiry) =
                  { s with
                    au :=
                      { s.au with
                        examPending := true
                        waitList :=
                          s.au.waitList ++
                            [⟨.cue number, target, gone, addr, max 1 (min 600000 len), chime, policy,
                              if expiry = 0 then none else some (min 600000 expiry)⟩] } }))

/-- R175, R176, R177, R128, R129. SHOW_HOLD acts on a RUNNING show and ALARM_HOLD on one that is RUNNING when it comes to
it, once no claim of a stage waits at ZM: the show is HELD with its reason and every SHOW channel that plays is PAUSED,
ZM learning of those that were RUNNING. SHOW_RESUME acts on a HELD show unless the published stage is GENERAL or
ABANDON, and gives every PAUSED channel its state again. That ALARM_HOLD waits while the claim of its stage stands at ZM
and that the postings go out in the order of the channels are the model's (assumptions 13 and 41). -/
def Obligations.HoldsPauseAndResumeChannels : Prop :=
  ∀ (s : State) (w : Show) (pause : Chan → Chan) (out : List ZmMsg), w = s.su.theShow →
    (∀ r, pause r =
      if r.cls = .show ∧ r.state = .running then { r with state := .paused .running }
      else if r.cls = .show ∧ r.state = .starved then { r with state := .paused .starved } else r) →
    out =
      ((List.finRange 16).filter fun c =>
        decide ((s.su.channels.get c).cls = .show ∧ (s.su.channels.get c).state = .running)).map
        (fun c => ZmMsg.streamRunning c false) →
    (∀ slot, s.xu.dispatch = some (slot, .showHold) → s.net.xuToSu = [] →
      (w.state ≠ .running → ∃ t, exec (.showHold slot) s = .next t ∧ s.answers t slot (.refused .state 0))
      ∧ (w.state = .running → ∃ t, exec (.showHold slot) s = .next t
        ∧ ({ s with
            su :=
              { s.su with
                theShow := { w with state := .held .host }, channels := s.su.channels.update fun _ r => pause r }
            net := { s.net with suToZm := s.net.suToZm ++ out } } : State).answers t slot (.done .ok .none)))
    ∧ (∀ n, s.net.alarmHolds = n + 1 →
        ((∃ k m st, .claim (.alarm .stage) k m st ∈ s.net.mauToZm) → exec .alarmHold s = .next s)
        ∧ ((∀ k m st, .claim (.alarm .stage) k m st ∉ s.net.mauToZm) →
            (w.state ≠ .running → ∃ t, exec .alarmHold s = .next t
              ∧ ({ s with net := { s.net with alarmHolds := n } } : State).settles t)
            ∧ (w.state = .running → ∃ t, exec .alarmHold s = .next t
              ∧ ({ s with
                  su :=
                    { s.su with
                      theShow := { w with state := .held .alarm }, channels := s.su.channels.update fun _ r => pause r }
                  net := { s.net with alarmHolds := n, suToZm := s.net.suToZm ++ out } } : State).settles t)))
    ∧ ∀ slot, s.xu.dispatch = some (slot, .showResume) → s.net.xuToSu = [] →
        ((s.mau.published = .general ∨ s.mau.published = .abandon ∨ ∀ h, w.state ≠ .held h) →
          ∃ t, exec (.showResume slot) s = .next t ∧ s.answers t slot (.refused .state 0))
        ∧ (s.mau.published ≠ .general → s.mau.published ≠ .abandon → ∀ h, w.state = .held h →
          ∃ t, exec (.showResume slot) s = .next t
            ∧ ({ s with
                su :=
                  { s.su with
                    theShow := { w with state := .running }
                    channels :=
                      s.su.channels.update fun _ r =>
                        match r.state with
                        | .paused .running => { r with state := .running }
                        | .paused .starved => { r with state := .starved }
                        | _ => r }
                net :=
                  { s.net with
                    suToZm :=
                      s.net.suToZm ++
                        ((List.finRange 16).filter fun c =>
                          decide ((s.su.channels.get c).state = .paused .running)).map
                          fun c => ZmMsg.streamRunning c true } } : State).answers t slot (.done .ok .none))

/-- R163, R178, R179. SHOW_STOP, of a show that is RUNNING, HELD or ENDED, and SU's part of a teardown return every
PAUSED channel to its state, then stop with a fade the SHOW channels that play (a teardown: every channel that plays,
with fade 0, and one in FAULT becomes STOPPED), and bring the show back to LOADED at its first cue. A channel that
stops at once has its playing block CONSUMED, and ZM learns of each that returns to RUNNING and each that leaves it.
The fader of a channel in FAULT or STOPPED at a teardown, the cursor of a playing channel without a ring, and the order
of channels are the model's (assumptions 22, 30 and 41). That sums of addresses are taken modulo 2^64 is the model's
(assumption 26). -/
def Obligations.ShowStopAndTeardownStopChannels : Prop :=
  ∀ (s : State) (w : Show) (before : Stream → Chan) (stopped : Chan → Chan) (back left : Stream → List ZmMsg)
    (consumed : Stream → List Transfer), w = s.su.theShow →
    (∀ c, before c =
      match (s.su.channels.get c).state with
      | .paused .running => { s.su.channels.get c with state := .running }
      | .paused .starved => { s.su.channels.get c with state := .starved }
      | _ => s.su.channels.get c) →
    (∀ r, stopped r =
      { r with
        state := .stopped, playing := none, next := none, marks := [], probe := none, stopPending := false
        fader := ⟨0, 0, 0⟩
        cursor :=
          match r.playing, r.ring with
          | some b, some g => (b.index + 1) % g.count
          | some b, none => b.index
          | none, _ => r.cursor }) →
    (∀ c, back c = if (s.su.channels.get c).state = .paused .running then [.streamRunning c true] else []) →
    (∀ c, left c = if (before c).state = .running then [.streamRunning c false] else []) →
    (∀ c, consumed c =
      match (before c).playing, (before c).ring with
      | some b, some g =>
        [⟨.descriptor c (before c).startNumber, g.base + BitVec.ofNat 64 (16 * b.index), 1, [0xF8], true⟩]
      | _, _ => []) →
    (∀ (slot : SlotIx) (p : ShowStopParams), s.xu.dispatch = some (slot, .showStop p) → s.net.xuToSu = [] →
      ((w.state = .empty ∨ w.state = .loaded) →
        ∃ t, exec (.showStop slot p) s = .next t ∧ s.answers t slot (.refused .state 0))
      ∧ (w.state ≠ .empty → w.state ≠ .loaded → ∀ (after : Stream → Chan) (now : Stream → Bool),
          (∀ c, now c = true ↔ (before c).cls = .show ∧ ((before c).state = .running ∨ (before c).state = .starved)
            ∧ (p.fade = 0 ∨ (before c).fader.current = 0)) →
          (∀ c, after c =
            if now c then stopped (before c)
            else if (before c).cls = .show ∧ ((before c).state = .running ∨ (before c).state = .starved) then
              { before c with stopPending := true, fader := (before c).fader.fade 0 p.fade.toNat }
            else before c) →
          ∃ t, exec (.showStop slot p) s = .next t
            ∧ ({ s with
                su :=
                  { s.su with
                    theShow := { w with state := .loaded, pointer := some 0, clock := 0, lastFire := 0 }
                    channels := Table.build after }
                net :=
                  { s.net with
                    suToZm :=
                      s.net.suToZm ++ (List.finRange 16).flatMap back
                        ++ (List.finRange 16).flatMap fun c => if now c then left c else [] }
                bus :=
                  { s.bus with
                    waiting :=
                      s.bus.waiting ++ (List.finRange 16).flatMap fun c => if now c then consumed c else [] } } :
                State).answers t slot (.done .ok .none)))
    ∧ ∀ (q : List XuPart) (after : Stream → Chan), s.net.xuToSu = .teardown :: q →
        (∀ c, after c =
          match (before c).state with
          | .fault => { stopped (before c) with cursor := (before c).cursor }
          | .stopped => { before c with fader := { (before c).fader with step := 0 }, stopPending := false }
          | _ => stopped (before c)) →
        ∃ t, exec .suTeardown s = .next t
          ∧ ({ s with
              su :=
                { s.su with
                  theShow :=
                    if w.state = .empty ∨ w.state = .loaded then w
                    else { w with state := .loaded, pointer := some 0, clock := 0, lastFire := 0 }
                  channels := Table.build after }
              net :=
                { s.net with
                  xuToSu := q, suToZm := s.net.suToZm ++ (List.finRange 16).flatMap fun c => back c ++ left c }
              bus :=
                { s.bus with
                  waiting :=
                    s.bus.waiting ++ (List.finRange 16).flatMap fun c =>
                      if (before c).state = .running ∨ (before c).state = .starved then consumed c else [] } } :
              State).settles t

/-! ## Teardowns, preemption, job resets -/

/-- R63, R94, R110, R128, R129, R199. A preemption, once no claim of a stage waits at ZM, and AU's part of a teardown stop
every player that plays: its zones are released, it is FREE, its slot completes PREEMPTED or ABORTED with what was
played; the teardown empties the wait list as well, each entry's slot completing ABORTED with nothing played. IS's
part of a teardown ends every page and leaves every station that is not OFFLINE IDLE with nobody waiting. Release
notices that reached AU behind a teardown reach it once no other teardown waits before them. That a preemption waits
while the claim of its stage stands at ZM, that the notices are held so, and that players and stations are taken in
rising number are the model's (assumptions 13, 33, 14 and 43). -/
def Obligations.TeardownsAndPreemptionEndWork : Prop :=
  ∀ (s : State) (out : List ZmMsg),
    out =
      ((List.finRange 4).filter fun p => decide ((s.au.players.get p).phase ≠ .free)).map
        (fun p => ZmMsg.release (.programmed p) (s.au.players.get p).admitted) →
    (∀ n, s.au.exam = none → s.net.preemptions = n + 1 →
      ((∃ k m st, .claim (.alarm .stage) k m st ∈ s.net.mauToZm) → exec .preemption s = .next s)
      ∧ ((∀ k m st, .claim (.alarm .stage) k m st ∉ s.net.mauToZm) → ∃ t, exec .preemption s = .next t
          ∧ t.pending = s.pending ∧ t.zm = s.zm ∧ t.ic = s.ic ∧ t.mau = s.mau ∧ t.su = s.su ∧ t.lp = s.lp
          ∧ t.net = { s.net with preemptions := n, auToZm := s.net.auToZm ++ out }
          ∧ t.au.waitList = s.au.waitList ∧ t.au.exam = none
          ∧ ∀ (p : Player) (r : PlayerRec), r = s.au.players.get p →
              (r.phase = .free → t.au.players.get p = r)
              ∧ (r.phase ≠ .free →
                  t.au.players.get p = { r with phase := .free, gen := none } ∧ t.au.examPending = true
                  ∧ ∀ k, r.origin = some (.slot k) →
                      (∀ q, q ≠ p → (s.au.players.get q).phase = .free ∨ (s.au.players.get q).origin ≠ some (.slot k)) →
                      t.xu.shadows.get k =
                        .finished (.done .preempted
                          (.announcement r.admitted (r.admitted &&& ~~~r.interrupted) r.played r.late)))))
    ∧ (∀ q, s.au.exam = none → s.net.xuToAu = .teardown :: q → ∃ t, exec .auTeardown s = .next t
        ∧ t.pending = s.pending ∧ t.zm = s.zm ∧ t.ic = s.ic ∧ t.mau = s.mau ∧ t.su = s.su ∧ t.lp = s.lp
        ∧ t.net =
            { s.net with
              xuToAu := q, auToZm := s.net.auToZm ++ out
              releaseNotices :=
                if .teardown ∈ q then s.net.releaseNotices else s.net.releaseNotices + s.net.heldNotices
              heldNotices := if .teardown ∈ q then s.net.heldNotices else 0 }
        ∧ t.au.waitList = [] ∧ t.au.exam = none
        ∧ (∀ e ∈ s.au.waitList, ∀ k, e.origin = .slot k →
            t.xu.shadows.get k = .finished (.done .aborted (.announcement 0 0 0 0)))
        ∧ ∀ (p : Player) (r : PlayerRec), r = s.au.players.get p →
            (r.phase = .free → t.au.players.get p = r)
            ∧ (r.phase ≠ .free →
                t.au.players.get p = { r with phase := .free, gen := none } ∧ t.au.examPending = true
                ∧ ∀ k, r.origin = some (.slot k) → (∀ e ∈ s.au.waitList, e.origin ≠ .slot k) →
                    (∀ q, q ≠ p → (s.au.players.get q).phase = .free ∨ (s.au.players.get q).origin ≠ some (.slot k)) →
                    t.xu.shadows.get k =
                      .finished (.done .aborted
                        (.announcement r.admitted (r.admitted &&& ~~~r.interrupted) r.played r.late))))
    ∧ ∀ q, s.ic.awaiting = none → s.net.xuToIs = .teardown :: q → ∃ t, exec .isTeardown s = .next t
        ∧ ({ s with
            ic :=
              { s.ic with
                channels := Table.fill 8 none
                stations :=
                  s.ic.stations.update fun _ r =>
                    if r.standing = .offline then r else { r with standing := .idle .quiet, waiting := [] } }
            net :=
              { s.net with
                xuToIs := q
                isToZm :=
                  s.net.isToZm
                    ++ ((List.finRange 8).flatMap fun c =>
                      match s.ic.channels.get c with
                      | some p =>
                        [.release (match p.cls with | .live => .live c | .ev => .ev c) p.admitted, .pageChannel c none]
                      | none => [])
                    ++ (List.finRange 64).flatMap fun st =>
                      match (s.ic.stations.get st).standing with
                      | .talking _ | .group _ => [.standing st .none]
                      | _ => [] } } : State).settles t

/-- R13, R20, R29, R54, R71, R72, R78, R92, R110, R153, R171, R201. A job reset brings its unit to the state of a software
reset: AU and SU keep only their start numbers, a cue-table load in flight being refused STATE 0 and its
reads discarded, none that waits being made, while descriptor writes that wait are, their completions discarded; IS ends its pages and holds each station the
ports reach as IDLE; ZM keeps the holders of ALARM, the line statuses and the silenced copy, and computes every target
again. That IS and SU post to ZM what the reset changes, that a descriptor write of the start number in force is
discarded with the rest, and that IS still takes after its reset what the station ports handed it before, are the
model's, and so are the order of the channels of SU and of the stations and that of one station's postings (assumptions
29, 34, 41, 42, 43 and 45). -/
def Obligations.JobResetsRestoreTheDefaults : Prop :=
  ∀ s : State,
    (∀ q, s.au.exam = none → s.net.xuToAu = .jobReset :: q → ∃ t, exec (.jobReset .au) s = .next t
      ∧ ({ s with
          au :=
            ⟨[], false, none, Table.build fun p =>
              { PlayerRec.reset with startNumber := (s.au.players.get p).startNumber }⟩
          net := { s.net with xuToAu := q } } : State).settles t)
    ∧ (∀ q, s.ic.awaiting = none → s.net.xuToIs = .jobReset :: q → ∃ t, exec (.jobReset .is) s = .next t
        ∧ ({ s with
            ic := t.ic
            net :=
              { s.net with
                xuToIs := q
                isToZm :=
                  s.net.isToZm
                    ++ ((List.finRange 8).flatMap fun c =>
                      match s.ic.channels.get c with
                      | some p =>
                        [.release (match p.cls with | .live => .live c | .ev => .ev c) p.admitted, .pageChannel c none]
                      | none => [])
                    ++ (List.finRange 64).flatMap fun st =>
                      (match (s.ic.stations.get st).standing with
                        | .talking _ | .group _ => [.standing st .none]
                        | _ => [])
                        ++ (if (s.ic.stations.get st).keyDown then [.talkKey st false] else [])
                        ++ if (s.ic.stations.get st).listen = 24576 then [] else [.listen st 24576] } } :
            State).settles t
        ∧ (t.ic.ringTimeout, t.ic.waitTimeout, t.ic.pageLimit) = (30000, 60000, 120000)
        ∧ (∀ c : Channel, t.ic.channels.get c = none) ∧ t.ic.awaiting = none
        ∧ (∀ i : Fin 2, t.ic.ports.get i = ⟨(s.lp.rx.get ⟨i.val, by omega⟩).pass, (s.lp.slots.get i).count⟩)
        ∧ ∀ st : Station, ∀ reached : Bool,
            reached = ((t.ic.ports.get (stationPort st).ix).pass
              && decide (st.val % 32 < (t.ic.ports.get (stationPort st).ix).count)) →
            t.ic.stations.get st =
              ⟨.crew, 0, 24576, if reached then .idle .quiet else .offline, false, [], none⟩)
    ∧ (∀ (q : List XuPart) (unheard : Transfer → Transfer), s.net.xuToSu = .jobReset :: q →
        (∀ x, unheard x =
          match x.job with
          | .cueList | .descriptor _ _ => { x with live := false }
          | _ => x) →
        ∀ v : State,
          v =
            { s with
              su :=
                ⟨Table.build fun c => { Chan.reset with startNumber := (s.su.channels.get c).startNumber }, .reset, none⟩
              net :=
                { s.net with
                  xuToSu := q
                  suToZm :=
                    s.net.suToZm ++ (List.finRange 16).flatMap fun c =>
                      (if (s.su.channels.get c).state = .running then [.streamRunning c false] else [])
                        ++ if (s.su.channels.get c).cls = .show then [.streamClass c .background] else [] }
              bus :=
                ⟨(s.bus.waiting.filter fun x => decide (x.job ≠ .cueList)).map unheard, s.bus.current.map unheard⟩ } →
          ∃ t, exec (.jobReset .su) s = .next t
            ∧ (match s.su.load with
              | some l => v.completed l.origin (.refused .state 0)
              | none => v).settles t)
    ∧ ∀ q, s.net.xuToZm = .jobReset :: q → ∃ t, exec (.jobReset .zm) s = .next t
        ∧ ({ s with zm := t.zm, net := { s.net with xuToZm := q } } : State).settles t
        ∧ t.zm.sets = ZoneSet.resetTable ∧ t.zm.silenced = s.zm.silenced
        ∧ (∀ c z, (t.zm.cross.get c).get z = 0) ∧ (∀ c, t.zm.streams.get c = ⟨.background, false⟩)
        ∧ (∀ src, t.zm.held.get src = ⟨silence48, false⟩) ∧ (∀ st, t.zm.conv.get st = ⟨.none, false, 24576⟩)
        ∧ (∀ c, t.zm.pages.get c = none)
        ∧ ∀ z : Zone,
            (t.zm.zones.get z).settings = .default
            ∧ (t.zm.zones.get z).holders = ⟨none, (s.zm.zones.get z).holders.alarm, none, none⟩
            ∧ (t.zm.zones.get z).line = (s.zm.zones.get z).line
            ∧ (t.zm.zones.get z).current = .zero ∧ (t.zm.zones.get z).clips = 0 ∧ (t.zm.zones.get z).peak = 0
            ∧ (t.zm.zones.get z).override = (s.zm.zones.get z).holders.alarm.isSome
            ∧ (t.zm.zones.get z).target =
                { Gains.zero with
                  alarm :=
                    if (s.zm.zones.get z).holders.alarm = none ∨ (s.zm.zones.get z).line = .short
                      ∨ (s.zm.silenced = true ∧ (s.zm.zones.get z).holders.alarm = some .stage) then 0
                    else 32768 }

/-! ## Mixing -/

/-- R27, R29 to R32, R36 to R45, R188, R191. The mix period start moves every current (EV and ALARM to their targets, the
others by at most the slew step, and straight to 0 under a SHORT line), sums each zone's beds and held classes through
them, saturates once, counts what saturated and keeps the peak, mixes each earpiece, hands samples, override and mute
bits to the ports, and clears every fresh mark. That a holder whose page channel carries no page in ZM's copy gives 0 is
the model's, for R37 has no row for it (assumption 37). -/
def Obligations.MixPeriodStartMixesEveryZone : Prop :=
  ∀ (s : State) (rnd : Int → Nat → Int) (sat : Int → Int) (src : Source → Fin 48 → Int),
    (∀ x g, rnd x g = (x * g + 16384) / 32768) → (∀ x, sat x = max (-8388608) (min 8388607 x)) →
    (∀ k i, src k i = if (s.zm.held.get k).fresh then (s.zm.held.get k).samples.get i else 0) →
    ∃ t, exec .mixPeriodStart s = .next t
      ∧ ({ s with zm := t.zm, lp := { s.lp with zoneTx := t.lp.zoneTx, stationTx := t.lp.stationTx } } : State).settles t
      ∧ t.zm = { s.zm with zones := t.zm.zones, held := t.zm.held }
      ∧ (∀ k, t.zm.held.get k = ⟨(s.zm.held.get k).samples, false⟩)
      ∧ (∀ (z : Zone) (r : ZoneRec) (g : Gains) (bed : BedClass → Fin 48 → Int) (page : Channel → Fin 48 → Int)
          (acc : Fin 48 → Int), r = s.zm.zones.get z → g = (t.zm.zones.get z).current →
          (∀ k i, bed k i = ((List.finRange 16).map fun c =>
            if (s.zm.streams.get c).running = true ∧ (s.zm.streams.get c).cls = k then
              rnd (src (.stream c) i) ((s.zm.cross.get c).get z)
            else 0).sum) →
          (∀ c i, page c i =
            match s.zm.pages.get c with
            | none => 0
            | some p => if p.phase = .chime then src (.pageChime c) i else src (.mic p.station) i) →
          (∀ i, acc i =
            rnd (bed .show i) g.show_ + rnd (bed .background i) g.bg
              + (match r.holders.ev with | some c => rnd (page c i) g.ev | none => 0)
              + (match r.holders.alarm with | some _ => rnd (src .alarmTone i) g.alarm | none => 0)
              + (match r.holders.live with | some c => rnd (page c i) g.live | none => 0)
              + (match r.holders.prog with | some p => rnd (src (.player p) i) g.prog | none => 0)) →
          g.ev = r.target.ev ∧ g.alarm = r.target.alarm
          ∧ (∀ cur tgt new, (cur, tgt, new) ∈
              [(r.current.live, r.target.live, g.live), (r.current.prog, r.target.prog, g.prog),
                (r.current.show_, r.target.show_, g.show_), (r.current.bg, r.target.bg, g.bg)] →
              new =
                if r.line = .short ∧ tgt = 0 then 0
                else if cur ≤ tgt then min tgt (cur + r.settings.slew) else max tgt (cur - r.settings.slew))
          ∧ (∀ i, (t.lp.zoneTx.get z).buffer.samples.get i = sat (acc i))
          ∧ (t.lp.zoneTx.get z).buffer.fresh = true ∧ (t.lp.zoneTx.get z).override = r.override
          ∧ ((t.lp.zoneTx.get z).mute = true ↔ g = .zero)
          ∧ t.zm.zones.get z = { r with current := g, clips := (t.zm.zones.get z).clips, peak := (t.zm.zones.get z).peak }
          ∧ (t.zm.zones.get z).clips =
              min 65535 (r.clips + ((List.finRange 48).filter fun i => decide (sat (acc i) ≠ acc i)).length)
          ∧ r.peak ≤ (t.zm.zones.get z).peak ∧ (∀ i, (sat (acc i)).natAbs ≤ (t.zm.zones.get z).peak)
          ∧ ((t.zm.zones.get z).peak = r.peak ∨ ∃ i, (t.zm.zones.get z).peak = (sat (acc i)).natAbs))
      ∧ ∀ (st : Station) (i : Fin 48), (t.lp.stationTx.get st).fresh = true
          ∧ (∀ c, c = s.zm.conv.get st →
            (t.lp.stationTx.get st).samples.get i =
              match c.standing with
              | .none => 0
              | .pair j => sat (rnd (src (.mic j) i) c.listen)
              | .group g =>
                sat (rnd (((List.finRange 64).map fun k =>
                  if k ≠ st ∧ (s.zm.conv.get k).standing = .group g ∧ (s.zm.conv.get k).keyDown = true then
                    src (.mic k) i
                  else 0).sum) c.listen))

/-! ## Claims and releases -/

/-- R8, R9, R10, R11, R12, R17, R122, R127. ZM takes the oldest message of a claiming unit. A claim: the zones of its
candidate mask whose fields its class finds free are admitted (all or none of them where the claim says so), their
holder is written, their targets and override bits follow, the unit is answered, and a claim of a stage publishes it.
A release: of the zones of its mask, those whose field of the class names the claimant (for ALARM, holds it at all) are
emptied, their targets and override bits following; if there was one, AU is sent one notice, which waits behind a
teardown that AU has not taken (R110, R199; the model's reading, assumption 33). -/
def Obligations.ClaimsAndReleasesMoveHolders : Prop :=
  (∀ (s : State) (u : Block) (c : Claim) (k : Candidates) (manner : Manner) (stage : Option Stage) (q : List ZmMsg)
      (mask : ZoneMask) (free : Zone → Prop), s.net.toZm u = .claim c k manner stage :: q →
      (∀ z, inMask mask z = true ↔
        match k with
        | .zones m => inMask m z = true
        | .crew => (s.zm.zones.get z).settings.flags.crew = true) →
      (∀ z, free z ↔
        match c with
        | .programmed _ => (s.zm.zones.get z).holders = ⟨none, none, none, none⟩
        | .live _ => ∃ p, (s.zm.zones.get z).holders = ⟨none, none, none, p⟩
        | .ev _ => (s.zm.zones.get z).holders.ev = none
        | .alarm _ => True) →
      ∃ t ok, exec (.claimRequest u) s = .next t
        ∧ ({ s with
            zm := { s.zm with zones := t.zm.zones }
            mau := { s.mau with published := stage.getD s.mau.published }
            net := (s.net.setToZm u q).setAnswer u (some ok) } : State).settles t
        ∧ (∀ z, inMask ok z = true ↔ inMask mask z = true ∧ free z
          ∧ (manner = .allOrNone → ∀ y, inMask mask y = true → free y))
        ∧ ∀ z, t.zm.zones.get z =
            if inMask ok z then
              let h := (s.zm.zones.get z).holders
              let h' : Holders :=
                match c with
                | .programmed p => { h with prog := some p }
                | .live x => { h with live := some x }
                | .ev x => { h with ev := some x }
                | .alarm .stage => { h with alarm := some .stage }
                | .alarm .test => { h with alarm := some (h.alarm.getD .test) }
              { s.zm.zones.get z with
                holders := h', override := overrideBit (s.zm.zones.get z).settings.threshold h'
                target := ({ s.zm.zones.get z with holders := h' } : ZoneRec).targets s.xu.mode s.zm.silenced
                  (s.zm.showActive z) }
            else s.zm.zones.get z)
  ∧ ∀ (s : State) (u : Block) (c : Claim) (m : ZoneMask) (q : List ZmMsg) (named : Zone → Prop),
      s.net.toZm u = .release c m :: q →
      (∀ z, named z ↔ inMask m z = true ∧
        match c with
        | .programmed p => (s.zm.zones.get z).holders.prog = some p
        | .live x => (s.zm.zones.get z).holders.live = some x
        | .ev x => (s.zm.zones.get z).holders.ev = some x
        | .alarm _ => (s.zm.zones.get z).holders.alarm ≠ none) →
      ∃ (t : State) (n h : Nat), exec (.releaseRequest u) s = .next t
        ∧ ({ s with
            zm := { s.zm with zones := t.zm.zones }
            net := { s.net.setToZm u q with releaseNotices := n, heldNotices := h } } : State).settles t
        ∧ ((∃ z, named z) → XuPart.teardown ∉ s.net.xuToAu →
            n = s.net.releaseNotices + 1 ∧ h = s.net.heldNotices)
        ∧ ((∃ z, named z) → XuPart.teardown ∈ s.net.xuToAu →
            n = s.net.releaseNotices ∧ h = s.net.heldNotices + 1)
        ∧ ((∀ z, ¬named z) → n = s.net.releaseNotices ∧ h = s.net.heldNotices)
        ∧ ∀ z,
            (¬named z → t.zm.zones.get z = s.zm.zones.get z)
            ∧ (named z → ∀ h h' : Holders, h = (s.zm.zones.get z).holders →
                h' =
                  (match c with
                  | .programmed _ => { h with prog := none }
                  | .live _ => { h with live := none }
                  | .ev _ => { h with ev := none }
                  | .alarm _ => { h with alarm := none }) →
                t.zm.zones.get z =
                  { s.zm.zones.get z with
                    holders := h', override := overrideBit (s.zm.zones.get z).settings.threshold h'
                    target := ({ s.zm.zones.get z with holders := h' } : ZoneRec).targets s.xu.mode s.zm.silenced
                      (s.zm.showActive z) })

/-- R14, R15, R16, R17. The targets of a zone follow its holders from EV down: EV, then ALARM (ducked under EV, silent while
a stage is silenced), then LIVE, then PROGRAMMED, each alone above those below it; the beds are cut by EV and ALARM and
ducked by the others; NIGHT caps a CABIN zone and takes its background away; STANDBY and SERVICE leave EV and ALARM
alone; a SHORT line leaves nothing. The override bit is set while ALARM or EV is held or the highest holder
reaches the threshold. -/
def Obligations.TargetsAndOverrideFollowTheHolders : Prop :=
  ∀ (z : ZoneRec) (mode : Mode) (silenced showActive : Bool) (w : ZoneSettings) (h : Holders) (g : Gains)
    (cap : Nat → Nat) (bed : Nat), w = z.settings → h = z.holders → g = z.targets mode silenced showActive →
    (∀ n, cap n = if mode = .night ∧ w.flags.cabin = true then min n w.nightCap else n) →
    bed =
      (if h.ev ≠ none ∨ h.alarm ≠ none then 0
      else if h.live ≠ none ∨ h.prog ≠ none then (w.master * w.duck + 16384) / 32768 else w.master) →
    (z.line = .short → g = .zero)
    ∧ (z.line ≠ .short →
        g.ev = (if h.ev = none then 0 else w.announce)
        ∧ g.alarm =
            (if h.alarm = none ∨ (silenced = true ∧ h.alarm = some .stage) then 0
            else if h.ev = none then w.alarm else (w.alarm * w.alarmDuck + 16384) / 32768)
        ∧ ((mode = .standby ∨ mode = .service) → g.live = 0 ∧ g.prog = 0 ∧ g.show_ = 0 ∧ g.bg = 0)
        ∧ ((mode = .normal ∨ mode = .night) →
            g.live = (if h.live ≠ none ∧ h.ev = none ∧ h.alarm = none then cap w.announce else 0)
            ∧ g.prog =
                (if h.prog ≠ none ∧ h.live = none ∧ h.ev = none ∧ h.alarm = none then cap w.announce else 0)
            ∧ g.show_ = (if w.flags.theatre then cap bed else 0)
            ∧ g.bg = (if showActive ∨ (mode = .night ∧ w.flags.cabin = true) then 0 else bed)))
    ∧ ∀ n, 1 ≤ n → n ≤ 3 →
        (overrideBit n h = true ↔ h.ev ≠ none ∨ h.alarm ≠ none ∨ (2 ≤ n ∧ h.live ≠ none) ∨ (3 ≤ n ∧ h.prog ≠ none))

/-! ## Postings and line statuses -/

/-- R5, R13, R29, R33, R37, R42, R92, R122, R182, R196. What ZM does with each posting it takes: its copy changes, and the
targets of the zones it bears on are computed again: of those with a crosspoint for a stream, of every zone for the
silenced flag and the mode. The two standings of a call that connects change as one. A delivered period becomes its
source's, fresh; that a delivery keeps no order with its unit's messages is the model's (assumption 2). A back-channel
report gives each of its port's sixteen zones the line status of its channel, a loss of pass makes all sixteen
UNKNOWN, and the zones whose status changed have their targets computed again. -/
def Obligations.PostingsAndLineReportsUpdateZm : Prop :=
  (∀ s : State,
      (∀ (c : Stream) (q : List ZmMsg) (m : ZmMsg) (v : StreamCopy), s.net.suToZm = m :: q →
        (m = .streamClass c v.cls ∧ v.running = (s.zm.streams.get c).running
          ∨ m = .streamRunning c v.running ∧ v.cls = (s.zm.streams.get c).cls) →
        ∃ t, exec .streamPosting s = .next t
          ∧ ({ s with
              zm := { s.zm with streams := s.zm.streams.set c v, zones := t.zm.zones }
              net := { s.net with suToZm := q } } : State).settles t
          ∧ ∀ z, t.zm.zones.get z =
              if (s.zm.cross.get c).get z = 0 then s.zm.zones.get z
              else
                { s.zm.zones.get z with
                  target := (s.zm.zones.get z).targets s.xu.mode s.zm.silenced (t.zm.showActive z) })
      ∧ (∀ (st : Station) (q : List ZmMsg) (m : ZmMsg) (v old : ConvCopy), s.net.isToZm = m :: q →
          old = s.zm.conv.get st →
          (m = .standing st v.standing ∧ v = { old with standing := v.standing }
            ∨ m = .talkKey st v.keyDown ∧ v = { old with keyDown := v.keyDown }
            ∨ m = .listen st v.listen ∧ v = { old with listen := v.listen }) →
          ∃ t, exec .conversationPosting s = .next t
            ∧ ({ s with
                zm := { s.zm with conv := s.zm.conv.set st v }, net := { s.net with isToZm := q } } : State).settles t)
      ∧ (∀ (a b : Station) (q : List ZmMsg), s.net.isToZm = .talking a b :: q →
          ∃ t, exec .conversationPosting s = .next t
            ∧ ({ s with
                zm :=
                  { s.zm with
                    conv :=
                      (s.zm.conv.set a { s.zm.conv.get a with standing := .pair b }).set b
                        { s.zm.conv.get b with standing := .pair a } }
                net := { s.net with isToZm := q } } : State).settles t)
      ∧ (∀ (c : Channel) (v : Option PageCopy) (q : List ZmMsg), s.net.isToZm = .pageChannel c v :: q →
          ∃ t, exec .pageChannelPosting s = .next t
            ∧ ({ s with
                zm := { s.zm with pages := s.zm.pages.set c v }, net := { s.net with isToZm := q } } : State).settles t)
      ∧ (∀ (b : Bool) (q : List ZmMsg), s.net.mauToZm = .silenced b :: q → ∃ t, exec .silencedPosting s = .next t
          ∧ ({ s with
              zm :=
                { s.zm with
                  silenced := b
                  zones :=
                    s.zm.zones.update fun z r =>
                      { r with target := r.targets s.xu.mode b (s.zm.showActive z) } }
              net := { s.net with mauToZm := q } } : State).settles t)
      ∧ (∀ q : List ZmMsg, s.net.xuToZm = .mode :: q → ∃ t, exec .modePosting s = .next t
          ∧ ({ s with
              zm :=
                { s.zm with
                  zones :=
                    s.zm.zones.update fun z r =>
                      { r with target := r.targets s.xu.mode s.zm.silenced (s.zm.showActive z) } }
              net := { s.net with xuToZm := q } } : State).settles t)
      ∧ ∀ (src : Source) (p : Period) (before after : List (Source × Period)),
          s.net.deliveries = before ++ (src, p) :: after → (∀ d ∈ before, d.1 ≠ src) →
          ∃ t, exec (.heldPeriodDelivery src) s = .next t
            ∧ ({ s with
                zm := { s.zm with held := t.zm.held }, net := { s.net with deliveries := before ++ after } } :
                State).settles t
            ∧ t.zm.held.get src = ⟨p, true⟩ ∧ ∀ k, k ≠ src → t.zm.held.get k = s.zm.held.get k)
  ∧ ∀ (s : State) (p : AmpPort) (n : Fin 4) (q : List AmpMsg) (line : Fin 16 → LineStatus) (c : Instr),
      (p, n) ∈ [(AmpPort.m0, 0), (.m1, 1), (.m2, 2), (.m3, 3)] →
      ((∃ v : Table 16 LineStatus, s.net.ampToZm.get n = .report v :: q ∧ line = v.get ∧ c = .lineStatusReport p)
        ∨ (s.net.ampToZm.get n = .passLoss :: q ∧ (line = fun _ => .unknown) ∧ c = .ampPassLoss p)) →
      ∃ t, exec c s = .next t
        ∧ ({ s with
            zm := { s.zm with zones := t.zm.zones }, net := { s.net with ampToZm := s.net.ampToZm.set n q } } :
            State).settles t
        ∧ (∀ z : Zone, z.val / 16 ≠ n.val → t.zm.zones.get z = s.zm.zones.get z)
        ∧ ∀ (k : Fin 16) (z : Zone), z.val = 16 * n.val + k.val →
            (line k = (s.zm.zones.get z).line → t.zm.zones.get z = s.zm.zones.get z)
            ∧ (line k ≠ (s.zm.zones.get z).line →
                t.zm.zones.get z =
                  { s.zm.zones.get z with
                    line := line k
                    target := ({ s.zm.zones.get z with line := line k } : ZoneRec).targets s.xu.mode s.zm.silenced
                      (s.zm.showActive z) })

/-! ## Announcements -/

/-- R12, R52, R53, R55, R56, R57. A notice of ZM sets an examination pending. A pending examination claims PROGRAMMED
for the entry at the head, naming the lowest FREE player, or ends where there is no entry or no FREE player. At ZM's
answer an entry admitted nowhere keeps its place and the examination goes on behind it; an entry admitted leaves the
list and its player starts, in CHIME with a generator on slot 3 or in CLIP with its first fetches issued, its held
period at ZM not fresh until it delivers, and the examination goes on with the entry that was behind it. That a period
of the player's last announcement still on its way is dropped, and that its fresh mark goes at this answer and not when
ZM writes the holder, are the model's (assumption 32), and so is that the examination visits
the list as it stands at each visit, with what a CLIP action has appended meanwhile (assumption 47). That sums of addresses
are taken modulo 2^64 is the model's (assumption 26). -/
def Obligations.ExaminationClaimsAndStartsPlayers : Prop :=
  ∀ (s : State),
    (∀ n, s.net.releaseNotices = n + 1 → ∃ t, exec .releaseNotice s = .next t
      ∧ ({ s with net := { s.net with releaseNotices := n }, au := { s.au with examPending := true } } :
          State).settles t)
    ∧ (s.au.exam = none → s.au.examPending = true →
        ((s.au.waitList = [] ∨ ∀ p, (s.au.players.get p).phase ≠ .free) →
          ∃ t, exec .eligibilityExamination s = .next t
            ∧ ({ s with au := { s.au with examPending := false } } : State).settles t)
        ∧ ∀ (p : Player) (e : Entry) (rest : List Entry), (s.au.players.get p).phase = .free →
            (∀ i < p, (s.au.players.get i).phase ≠ .free) → s.au.waitList = e :: rest →
            ∃ t, exec .eligibilityExamination s = .next t
              ∧ ({ s with
                  au := { s.au with examPending := false, exam := some ⟨0, p⟩ }
                  net :=
                    { s.net with
                      auToZm :=
                        s.net.auToZm ++
                          [.claim (.programmed p) (.zones e.target)
                            (match e.policy with | .waitAll => .allOrNone | .partly => .any) none] } } :
                  State).settles t)
    ∧ ∀ (before after : List Entry) (e : Entry) (p : Player) (r : PlayerRec) (m : ZoneMask) (place : Nat)
        (busy : Player → Prop) (exam : Option Exam) (claims : List ZmMsg), s.au.exam = some ⟨before.length, p⟩ →
        s.au.waitList = before ++ e :: after → r = s.au.players.get p → s.net.zmToAu = some m →
        (∀ q, busy q ↔ (s.au.players.get q).phase ≠ .free ∨ (m ≠ 0 ∧ q = p)) →
        place = (if m = 0 then before.length + 1 else before.length) →
        ((after = [] ∨ ∀ q, busy q) ∧ exam = none ∧ claims = []
          ∨ ∃ f rest q, after = f :: rest ∧ ¬busy q ∧ (∀ i < q, busy i) ∧ exam = some ⟨place, q⟩
            ∧ claims =
                [.claim (.programmed q) (.zones f.target)
                  (match f.policy with | .waitAll => .allOrNone | .partly => .any) none]) →
        (m = 0 → ∃ t, exec (.claimAnswer .au) s = .next t
          ∧ ({ s with
              au := { s.au with exam := exam }
              net := { s.net with zmToAu := none, auToZm := s.net.auToZm ++ claims } } : State).settles t)
        ∧ ∀ (chiming started : PlayerRec) (reads : List Transfer), m ≠ 0 →
            chiming =
              { PlayerRec.reset with
                phase := .chime, origin := some e.origin, target := e.target, filtered := e.filtered, admitted := m
                clipAddr := e.clipAddr, clipLen := e.clipLen, startNumber := r.startNumber + 1
                gen := some (Gen.chime s.mau.store) } →
            (e.chime = true ∧ started = chiming ∧ reads = []
              ∨ e.chime = false
                ∧ started =
                  { chiming with
                    phase := .clip, gen := none, lead := true, mark0 := .requested
                    mark1 := if 2 ≤ e.clipLen then .requested else .notRequested }
                ∧ reads =
                  ⟨.clip p 0 (r.startNumber + 1), e.clipAddr, 192, [], true⟩
                    :: if 2 ≤ e.clipLen then [⟨.clip p 1 (r.startNumber + 1), e.clipAddr + 192, 192, [], true⟩]
                      else []) →
            ∃ t, exec (.claimAnswer .au) s = .next t
              ∧ ({ s with
                  zm :=
                    { s.zm with
                      held :=
                        { s.zm.held with
                          players := s.zm.held.players.set p { s.zm.held.players.get p with fresh := false } } }
                  au :=
                    { s.au with
                      exam := exam, waitList := before ++ after, players := s.au.players.set p started }
                  net :=
                    { s.net with
                      zmToAu := none, auToZm := s.net.auToZm ++ claims
                      deliveries := s.net.deliveries.filter fun d => decide (d.1 ≠ .player p) }
                  bus := { s.bus with waiting := s.bus.waiting ++ reads } } : State).settles t

/-- R56, R57, R59, R61, R62, R64, R67. AU's period start, whole. Each player takes its turn: one that plays adds the zones
held back to its interrupted mask; in CHIME its generator produces a period, and at the generator's end it enters CLIP
with its first fetches; in CLIP it spends its lead period start with nothing delivered, then delivers one period at
each, or finds it late and delivers nothing, requests the period after next where the clip has one, and at the last one
ends, its zones released, an examination pending and its slot, if a slot announced it, complete. Then every expiry
counts down, and the entries whose expiry is out leave the list, the slots of those that have one EXPIRED. Nothing else
is delivered, released, fetched or completed. That a due period whose fetch was never issued counts as late, that a player
whose chime or clip is over waits for its end, and the order of the players are the model's (assumptions 21, 7 and 14).
That sums of addresses are taken modulo 2^64 is the model's (assumption 26). -/
def Obligations.AuPeriodStartPlaysAndExpires : Prop :=
  ∀ (s u : State) (inter : Player → ZoneMask) (turn : Player → PlayerTurn) (aged : List Entry)
    (ends : Option Origin → State → Completion → State), s.au.exam = none →
    (∀ p z, inMask (inter p) z = true ↔ inMask (s.au.players.get p).interrupted z = true
      ∨ inMask (s.au.players.get p).admitted z = true ∧ (s.zm.zones.get z).target.prog = 0
        ∧ ((s.zm.zones.get z).holders.live ≠ none ∨ (s.zm.zones.get z).holders.alarm ≠ none
          ∨ (s.zm.zones.get z).holders.ev ≠ none ∨ s.xu.mode = .standby ∨ s.xu.mode = .service
          ∨ (s.zm.zones.get z).line = .short ∨ (s.zm.zones.get z).settings.announce = 0)) →
    (∀ p, (s.au.players.get p).turn p s.mau.store (inter p) (turn p)) →
    aged = (s.au.waitList.map fun e => { e with expiry := e.expiry.map fun n => n - 1 }) →
    (∀ o v c, ends o v c = match o with | some (.slot k) => v.completed k c | _ => v) →
    u =
      { s with
        au :=
          { s.au with
            examPending := s.au.examPending || (List.finRange 4).any fun p => (turn p).done.isSome
            waitList := aged.filter fun e => decide (e.expiry ≠ some 0)
            players := Table.build fun p => (turn p).after }
        net :=
          { s.net with
            auToZm := s.net.auToZm ++ (List.finRange 4).flatMap fun p => (turn p).sends
            deliveries := s.net.deliveries ++ (List.finRange 4).flatMap fun p => (turn p).out } } →
    ∃ t, exec .auPeriodStart s = .next t
      ∧ ((aged.filter fun e => decide (e.expiry = some 0)).foldl
          (fun v e => ends (some e.origin) v (.done .expired (.announcement 0 0 0 0)))
          ((List.finRange 4).foldl
            (fun v p =>
              let x := { v with bus := { v.bus with waiting := v.bus.waiting ++ (turn p).reads } }
              match (turn p).done with
              | some c => ends (s.au.players.get p).origin x c
              | none => x)
            u)).settles t

/-- R62, R56, R57, R58, R60, R63, R67, R70. A clip whose cursor has reached its length ends PLAYED, or PARTLY if a zone
was filtered or not heard throughout; a chime that has ended gives way to the clip; an entry whose expiry is out leaves
the list EXPIRED; a clip fetch fills the mark of its period, unless it belongs to an earlier start or comes too late,
and a bus error stops the player ABORTED. What a slot announced completes that slot; what a cue announced ends in the
same way and completes none. That sums of addresses are taken modulo 2^64 is the model's (assumption 26). -/
def Obligations.AnnouncementEventsEndAndFetch : Prop :=
  ∀ (s : State) (ends : Option Origin → State → Completion → State), s.au.exam = none →
    (∀ o v c, ends o v c = match o with | some (.slot k) => v.completed k c | _ => v) →
    (∀ (p : Player) (r : PlayerRec) (heard : ZoneMask), r = s.au.players.get p → r.phase = .clip →
      r.clipLen ≤ r.cursor → heard = r.admitted &&& ~~~r.interrupted →
      ∃ t, exec (.clipEnd p) s = .next t
        ∧ (ends r.origin
            { s with
              au :=
                { s.au with
                  examPending := true
                  players := s.au.players.set p { r with phase := .free, gen := none } }
              net := { s.net with auToZm := s.net.auToZm ++ [.release (.programmed p) r.admitted] } }
            (.done (if heard = r.target ∧ r.filtered = 0 then .played else .partly)
              (.announcement r.admitted heard r.played r.late))).settles t)
    ∧ (∀ (p : Player) (r : PlayerRec), r = s.au.players.get p → r.phase = .chime → r.gen = none →
        ∃ t, exec (.playerChimeEnd p) s = .next t
          ∧ ({ s with
              au :=
                { s.au with
                  players :=
                    s.au.players.set p
                      { r with
                        phase := .clip, gen := none, lead := true, mark0 := .requested
                        mark1 := if 2 ≤ r.clipLen then .requested else .notRequested } }
              bus :=
                { s.bus with
                  waiting :=
                    s.bus.waiting
                      ++ ⟨.clip p 0 r.startNumber, r.clipAddr, 192, [], true⟩
                        :: if 2 ≤ r.clipLen then [⟨.clip p 1 r.startNumber, r.clipAddr + 192, 192, [], true⟩]
                          else [] } } : State).settles t)
    ∧ (∀ (before after : List Entry) (e : Entry), s.au.waitList = before ++ e :: after →
        e.expiry = some 0 → (∀ x ∈ before ++ after, x.expiry ≠ some 0) →
        ∃ t, exec .entryExpiry s = .next t
          ∧ (ends (some e.origin) { s with au := { s.au with waitList := before ++ after } }
              (.done .expired (.announcement 0 0 0 0))).settles t)
    ∧ ∀ (p : Player) (i start : Nat) (r : PlayerRec), s.inProgress = some (.clip p i start) → r = s.au.players.get p →
        (∀ b : BusRead 192, (start ≠ r.startNumber ∨ r.phase = .free) → ∃ t, exec (.clipFetchComplete b) s = .next t
          ∧ ({ s with bus := { s.bus with current := none } } : State).settles t)
        ∧ (start = r.startNumber → r.phase ≠ .free →
            (∀ (b : Table 192 Byte) (x : Period),
              (∀ n : Fin 48, x.get n = max (-8388608) (min 8388607 (fieldBits b (4 * n.val) 4).toInt)) →
              (i < r.cursor → ∃ t, exec (.clipFetchComplete (.data b)) s = .next t
                ∧ ({ s with bus := { s.bus with current := none } } : State).settles t)
              ∧ (i = r.cursor → ∃ t, exec (.clipFetchComplete (.data b)) s = .next t
                ∧ ({ s with
                    au := { s.au with players := s.au.players.set p { r with mark0 := .complete x } }
                    bus := { s.bus with current := none } } : State).settles t)
              ∧ (i = r.cursor + 1 → ∃ t, exec (.clipFetchComplete (.data b)) s = .next t
                ∧ ({ s with
                    au := { s.au with players := s.au.players.set p { r with mark1 := .complete x } }
                    bus := { s.bus with current := none } } : State).settles t))
            ∧ ∃ t, exec (.clipFetchComplete .busError) s = .next t
                ∧ (ends r.origin
                    { s with
                      au :=
                        { s.au with
                          examPending := true
                          players := s.au.players.set p { r with phase := .free, gen := none } }
                      net := { s.net with auToZm := s.net.auToZm ++ [.release (.programmed p) r.admitted] }
                      bus := { s.bus with current := none } }
                    (.done .aborted
                      (.announcement r.admitted (r.admitted &&& ~~~r.interrupted) r.played r.late))).settles t)

/-! ## The intercom -/

/-- R75, R76, R80, R81, R82, R83, R85, R86, R89, R92, R93. A fresh CALL, ANSWER or CLEAR of a station. An IDLE station's call
is denied in STANDBY and SERVICE and to no station, itself or an OFFLINE one; it rings an IDLE station, and joins the
list of a busy one unless four wait there. A RINGING station answers with ANSWER or by calling its caller, and both
TALK, ZM told of both at once. CLEAR ends what the station is in, whatever that is, the stations it leaves serving whom
they have waiting. That of two standings that go the clearing station's is posted first is the model's (assumption 45). -/
def Obligations.CallAnswerAndClearMoveStations : Prop :=
  ∀ (s v : State) (st : Station) (w : ControlWord) (q : List IsMsg) (r : StationRec), s.freshWord st w q →
    v = s.wordTaken st w q → r = s.ic.stations.get st →
    (w.event = 1 →
      (∀ m, r.standing = .idle m →
        ((s.xu.mode = .standby ∨ s.xu.mode = .service ∨ 63 < w.arg.toNat ∨ w.arg.toNat = st.val
            ∨ ∃ b : Station, b.val = w.arg.toNat ∧ (s.ic.stations.get b).standing = .offline) →
          ∃ t, exec (.call st w.arg) s = .next t ∧ (v.standingSet st (.idle .busyDenied)).settles t)
        ∧ ((s.xu.mode = .normal ∨ s.xu.mode = .night) → ∀ b : Station, b.val = w.arg.toNat → b ≠ st →
            (∀ n, (s.ic.stations.get b).standing = .idle n → ∃ t, exec (.call st w.arg) s = .next t
              ∧ ((v.standingSet st (.calling b)).standingSet b (.ringing st s.ic.ringTimeout)).settles t)
            ∧ ((s.ic.stations.get b).standing ≠ .offline → (∀ n, (s.ic.stations.get b).standing ≠ .idle n) →
                (4 ≤ (s.ic.stations.get b).waiting.length → ∃ t, exec (.call st w.arg) s = .next t
                  ∧ (v.standingSet st (.idle .busyDenied)).settles t)
                ∧ ((s.ic.stations.get b).waiting.length < 4 → ∃ t, exec (.call st w.arg) s = .next t
                  ∧ ({ v with
                      ic :=
                        { v.ic with
                          stations :=
                            (v.ic.stations.set b
                              { s.ic.stations.get b with waiting := (s.ic.stations.get b).waiting ++ [st] }).set st
                              { v.ic.stations.get st with standing := .waiting b s.ic.waitTimeout } } } :
                      State).settles t))))
      ∧ (∀ b n, r.standing = .ringing b n → b ≠ st → (s.ic.stations.get b).standing = .calling st →
          (w.arg.toNat = b.val → ∃ t, exec (.call st w.arg) s = .next t
            ∧ (((v.standingSet st (.talking b)).standingSet b (.talking st)).isSends [.talking st b]).settles t)
          ∧ (w.arg.toNat ≠ b.val → ∃ t, exec (.call st w.arg) s = .next t ∧ v.settles t))
      ∧ ((∀ m, r.standing ≠ .idle m) → (∀ b n, r.standing ≠ .ringing b n) →
          ∃ t, exec (.call st w.arg) s = .next t ∧ v.settles t))
    ∧ (w.event = 2 →
        (∀ b n, r.standing = .ringing b n → b ≠ st → (s.ic.stations.get b).standing = .calling st →
          ∃ t, exec (.answer st) s = .next t
            ∧ (((v.standingSet st (.talking b)).standingSet b (.talking st)).isSends [.talking st b]).settles t)
        ∧ ((∀ b n, r.standing ≠ .ringing b n) → ∃ t, exec (.answer st) s = .next t ∧ v.settles t))
    ∧ (w.event = 3 →
        (∀ m, r.standing = .idle m → ∃ t, exec (.clear st) s = .next t ∧ v.settles t)
        ∧ ∀ u, v.leaves u st → ∃ t, exec (.clear st) s = .next t ∧ u.settles t)

/-- R74, R75, R76, R79, R88, R90, R93, R100, R101. A fresh GROUP_JOIN, PAGE, talk key or undefined event of a station, the word
that gives a station its counter, and the words that are discarded: those of an OFFLINE station and those that repeat
the counter last taken. That the stage read for the class of a page is the published one, that a page's chime flag is
read when the PAGE is taken, and that its station is shown QUIET until ZM answers, are the model's (assumptions 12, 28
and 44). -/
def Obligations.StationEventsJoinPageAndKey : Prop :=
  (∀ (s v : State) (st : Station) (w : ControlWord) (q : List IsMsg) (r : StationRec), s.freshWord st w q →
    v = s.wordTaken st w q → r = s.ic.stations.get st →
    (w.event = 4 →
      (∀ m, r.standing = .idle m →
        ((s.xu.mode = .standby ∨ s.xu.mode = .service ∨ 7 < w.arg.toNat
            ∨ ∃ g : Group, g.val = w.arg.toNat ∧ r.groups.getLsbD g.val = false) →
          ∃ t, exec (.groupJoin st w.arg) s = .next t ∧ (v.standingSet st (.idle .busyDenied)).settles t)
        ∧ ((s.xu.mode = .normal ∨ s.xu.mode = .night) → ∀ g : Group, g.val = w.arg.toNat →
            r.groups.getLsbD g.val = true → ∃ t, exec (.groupJoin st w.arg) s = .next t
              ∧ ((v.standingSet st (.group g)).isSends [.standing st (.group g)]).settles t))
      ∧ ((∀ m, r.standing ≠ .idle m) → ∃ t, exec (.groupJoin st w.arg) s = .next t ∧ v.settles t))
    ∧ (∀ (set : BitVec 7) (emergency : Bool) (k : PageClass), w.event = 5 → w.arg = BitVec.ofBool emergency ++ set →
        (k = .ev ↔ emergency = true ∧ r.authority = .bridge ∧ s.mau.published ≠ .idle) →
        ((∀ m, r.standing ≠ .idle m) → ∃ t, exec (.page st set emergency) s = .next t ∧ v.settles t)
        ∧ ∀ m, r.standing = .idle m →
            ((k = .live ∧ (s.xu.mode = .standby ∨ s.xu.mode = .service ∨ r.authority = .crew) ∨ 31 < set.toNat
                ∨ ∀ c, s.ic.channels.get c ≠ none) →
              ∃ t, exec (.page st set emergency) s = .next t ∧ (v.standingSet st (.idle .busyDenied)).settles t)
            ∧ ((k = .ev ∨ (s.xu.mode = .normal ∨ s.xu.mode = .night) ∧ r.authority ≠ .crew) →
                ∀ (z : SetIx) (c : Channel), z.val = set.toNat → s.ic.channels.get c = none →
                  (∀ i < c, s.ic.channels.get i ≠ none) → ∃ t, exec (.page st set emergency) s = .next t
                    ∧ ({ v.isSends
                          [.claim (match k with | .live => .live c | .ev => .ev c)
                            (.zones (s.zm.sets.get z).members) .any none] with
                        ic := { v.ic with awaiting := some ⟨st, k, z, c, (s.zm.sets.get z).chime⟩ } } :
                        State).settles t))
    ∧ (∀ (c : Instr) (b : Bool), (w.event = 6 ∧ c = .talkDown st ∧ b = true ∨ w.event = 7 ∧ c = .talkUp st ∧ b = false) →
        ∃ t, exec c s = .next t
          ∧ ({ v.isSends [.talkKey st b] with
              ic :=
                { v.ic with
                  stations := v.ic.stations.set st { v.ic.stations.get st with keyDown := b } } } : State).settles t)
    ∧ ((w.event = 0 ∨ 8 ≤ w.event.toNat) →
        ∃ t, exec (.undefinedStationEvent st w.event) s = .next t ∧ v.settles t))
  ∧ ∀ (s u : State) (st : Station) (w : ControlWord) (q : List IsMsg), s.ic.awaiting = none →
      s.net.stationToIs.get (stationPort st).ix = .word st w :: q →
      u = { s with net := { s.net with stationToIs := s.net.stationToIs.set (stationPort st).ix q } } →
      ((s.ic.stations.get st).standing ≠ .offline → (s.ic.stations.get st).counter = none →
        ∃ t, exec (.referenceWord st) s = .next t
          ∧ ({ u with
              ic :=
                { s.ic with
                  stations :=
                    s.ic.stations.set st { s.ic.stations.get st with counter := some w.counter } } } : State).settles t)
      ∧ (((s.ic.stations.get st).standing = .offline ∨ (s.ic.stations.get st).counter = some w.counter) →
          ∀ c : Instr,
            ((c, w.event) ∈ [(Instr.call st w.arg, 1), (.answer st, 2), (.clear st, 3), (.groupJoin st w.arg, 4),
                (.talkDown st, 6), (.talkUp st, 7)]
              ∨ w.event = 5 ∧ (∃ set emergency, w.arg = BitVec.ofBool emergency ++ set ∧ c = .page st set emergency)
              ∨ (w.event = 0 ∨ 8 ≤ w.event.toNat) ∧ c = .undefinedStationEvent st w.event) →
            ∃ t, exec c s = .next t ∧ u.settles t)

/-- R101, R102, R99, R127, R131. ZM's answer to a page's claim: admitted nowhere, the station is denied; otherwise the channel
carries the page over the admitted zones, with its chime first where the set asks for it, and the station is
PAGING. ZM's answer to an ALARM claim ends MAU's wait: a test takes it as its zones, and the entry into ALERT that
ended a test releases the test's other zones. That the phase a page is admitted in, and its generator with it, follow the
chime flag read when the PAGE was taken, and not the flag at ZM's answer, is the model's (assumption 28). -/
def Obligations.AnswersAdmitPagesAndTests : Prop :=
  ∀ (s : State) (m : ZoneMask),
    (∀ (w : PageWait) (v : State) (phase : PagePhase), s.ic.awaiting = some w → s.net.zmToIs = some m →
      v = { s with ic := { s.ic with awaiting := none }, net := { s.net with zmToIs := none } } →
      (phase = .chime ↔ w.chime = true) →
      (m = 0 → (∃ n, (s.ic.stations.get w.station).standing = .idle n) →
        ∃ t, exec (.claimAnswer .is) s = .next t ∧ (v.standingSet w.station (.idle .busyDenied)).settles t)
      ∧ (m ≠ 0 → (∃ n, (s.ic.stations.get w.station).standing = .idle n) →
          ∃ t, exec (.claimAnswer .is) s = .next t
            ∧ ({ (v.standingSet w.station (.paging w.channel)).isSends
                  [.pageChannel w.channel (some ⟨w.station, phase⟩)] with
                ic :=
                  { (v.standingSet w.station (.paging w.channel)).ic with
                    channels :=
                      s.ic.channels.set w.channel
                        (some ⟨w.station, w.cls, w.set, m, phase, s.ic.pageLimit,
                          if w.chime then some (Gen.chime s.mau.store) else none⟩) } } : State).settles t))
    ∧ ∀ (a : MauAwait) (v : State), s.mau.awaiting = some a → s.net.zmToMau = some m →
        v = { s with mau := { s.mau with awaiting := none }, net := { s.net with zmToMau := none } } →
        (a = .stageOnly → ∃ t, exec (.claimAnswer .mau) s = .next t ∧ v.settles t)
        ∧ (∀ k, a = .stageRelease k → ∃ t, exec (.claimAnswer .mau) s = .next t
            ∧ ({ v with
                net :=
                  { v.net with
                    mauToZm := s.net.mauToZm ++ [.release (.alarm .stage) (k &&& ~~~m)] } } : State).settles t)
        ∧ (∀ x, a = .testStart → s.mau.test = some x → ∃ t, exec (.claimAnswer .mau) s = .next t
            ∧ ({ v with mau := { v.mau with test := some { x with mask := m } } } : State).settles t)

/-- R84, R85, R86, R87, R103, R105, R108. IS's period start moves every timer by one. Where one runs out, its station leaves
what it is in: a ring timer leaves both stations IDLE, the caller shown NO_ANSWER, a wait timer takes the waiter off the
list, shown NO_ANSWER, a page limit ends the page as CLEAR does, and those now IDLE serve their lists. Then every page
in CHIME, in rising channel number (the model's choice, assumption 43), delivers a period of its chime and is OPEN where
the chime ends. The same expiries as commands of their own, where a timer stands at 0. -/
def Obligations.IsTimersExpire : Prop :=
  ∀ s : State, s.ic.awaiting = none →
    (∀ (e u : State) (first : List Station) (out : Station → Prop)
      (chimed : Channel → Option PageRec × List ZmMsg × List (Source × Period)), s.ic.ringTimeout ≠ 0 →
      (∀ st c p, (s.ic.stations.get st).standing = .paging c → s.ic.channels.get c = some p → p.station = st) →
      e =
        { s with
          ic :=
            { s.ic with
              stations :=
                s.ic.stations.update fun _ r =>
                  { r with
                    standing :=
                      match r.standing with
                      | .ringing a n => .ringing a (n - 1)
                      | .waiting o n => .waiting o (n - 1)
                      | v => v }
              channels := s.ic.channels.update fun _ p => p.map fun p => { p with left := p.left - 1 } } } →
      (∀ st, out st ↔ (∃ a, (e.ic.stations.get st).standing = .ringing a 0)
        ∨ (∃ o, (e.ic.stations.get st).standing = .waiting o 0)
        ∨ ∃ c p, (e.ic.stations.get st).standing = .paging c ∧ e.ic.channels.get c = some p ∧ p.left = 0) →
      ((∀ st, ¬out st) ∧ u = e
        ∨ ∃ st, out st ∧ (∀ x, out x → x = st)
          ∧ ((∀ o n, (e.ic.stations.get st).standing ≠ .waiting o n) ∧ e.leaves u st
            ∨ ∃ o, o ≠ st ∧ (e.ic.stations.get st).standing = .waiting o 0 ∧ e.callersWait st
              ∧ u =
                ({ e with
                    ic :=
                      { e.ic with
                        stations :=
                          (e.ic.stations.set o
                            { e.ic.stations.get o with
                              waiting := (e.ic.stations.get o).waiting.filter fun x => decide (x ≠ st) }).set st
                            { e.ic.stations.get st with standing := .idle .noAnswer } } } : State).served st)) →
      (∀ c, chimed c =
        match u.ic.channels.get c with
        | some p =>
          match p.phase, p.gen with
          | .chime, some g =>
            match g.next s.mau.store with
            | some g' => (some { p with gen := some g' }, [], [(.pageChime c, g.samples)])
            | none =>
              (some { p with phase := .opened, gen := none }, [.pageChannel c (some ⟨p.station, .opened⟩)],
                [(.pageChime c, g.samples)])
          | _, _ => (some p, [], [])
        | none => (none, [], [])) →
      ∃ t, exec (.isPeriodStart first) s = .next t
        ∧ ({ u with
            ic := { u.ic with channels := Table.build fun c => (chimed c).1 }
            net :=
              { u.net with
                isToZm := u.net.isToZm ++ (List.finRange 8).flatMap fun c => (chimed c).2.1
                deliveries := u.net.deliveries ++ (List.finRange 8).flatMap fun c => (chimed c).2.2 } } :
            State).settles t)
    ∧ (∀ u st a, (s.ic.stations.get st).standing = .ringing a 0 → s.leaves u st →
        ∃ t, exec (.ringTimeout st) s = .next t ∧ u.settles t)
    ∧ (∀ st o, (s.ic.stations.get st).standing = .waiting o 0 → o ≠ st → s.callersWait st →
        ∃ t, exec (.waitTimeout st) s = .next t
          ∧ (({ s with
                ic :=
                  { s.ic with
                    stations :=
                      (s.ic.stations.set o
                        { s.ic.stations.get o with
                          waiting := (s.ic.stations.get o).waiting.filter fun x => decide (x ≠ st) }).set st
                        { s.ic.stations.get st with standing := .idle .noAnswer } } } : State).served st).settles t)
    ∧ ∀ (c : Channel) (p : PageRec), s.ic.channels.get c = some p →
        (∀ u, p.left = 0 → (s.ic.stations.get p.station).standing = .paging c → s.leaves u p.station →
          ∃ t, exec (.pageLimitExpiry c) s = .next t ∧ u.settles t)
        ∧ (p.phase = .chime → p.gen = none → ∃ t, exec (.pageChimeEnd c) s = .next t
            ∧ ({ s.isSends [.pageChannel c (some ⟨p.station, .opened⟩)] with
                ic :=
                  { s.ic with
                    channels := s.ic.channels.set c (some { p with phase := .opened, gen := none }) } } :
                State).settles t)

/-- R77, R78, R86, R91, R92, R99, R109. The condition of a station port: each station of the port that it reaches comes online
IDLE with no counter taken, each it no longer reaches goes OFFLINE, its settings kept, its page ended, its key up. Of
those left behind, the partner of a call and the caller on a list are IDLE (shown NO_ANSWER where they were CALLING or
WAITING) and serve who still waits on them, and a waiter that is served is CALLING; every other station stays as it was
but for those gone from its list. ZM is told, station by station, of pages, keys and standings that go, and then of
the standings of the partners. Stations are held to be in one conversation structure. That the key of a station is
posted before its standing is the model's (assumption 45). -/
def Obligations.PortConditionBringsStationsOnlineAndOffline : Prop :=
  ∀ (s : State) (p : StationPort) (pass : Bool) (count : Nat) (q : List IsMsg) (reached : Station → Bool)
    (old after : Station → StationRec) (come gone : Station → Bool)
    (ends : Station → Option IdleNotice) (waits : Station → List Station),
    s.ic.sound → s.ic.awaiting = none → s.net.stationToIs.get p.ix = .condition pass count :: q →
    (∀ st, reached st = (pass && decide (st.val % 32 < count))) → (∀ st, old st = s.ic.stations.get st) →
    (∀ st, come st = true ↔ st.val / 32 = p.ix.val ∧ (old st).standing = .offline ∧ reached st = true) →
    (∀ st, gone st = true ↔ st.val / 32 = p.ix.val ∧ (old st).standing ≠ .offline ∧ reached st = false) →
    (∀ st, waits st = (old st).waiting.filter fun x => !gone x) →
    (∀ st, ends st =
      match (old st).standing with
      | .calling x => if gone x then some .noAnswer else none
      | .ringing x _ => if gone x then some .quiet else none
      | .talking x => if gone x then some .quiet else none
      | .waiting o _ => if gone o then some .noAnswer else none
      | _ => none) →
    (∀ st, after st =
      if come st then { old st with standing := .idle .quiet, keyDown := false, waiting := [], counter := none }
      else if gone st then { old st with standing := .offline, keyDown := false, waiting := [], counter := none }
      else
        match ends st, waits st with
        | some notice, [] => { old st with standing := .idle notice, waiting := [] }
        | some _, x :: rest => { old st with standing := .ringing x s.ic.ringTimeout, waiting := rest }
        | none, l =>
          { old st with
            waiting := l
            standing :=
              match (old st).standing with
              | .waiting o n => if (ends o).isSome = true ∧ (waits o).head? = some st then .calling o else .waiting o n
              | v => v }) →
    ∃ t, exec (.portCondition p) s = .next t
      ∧ ({ s with
          ic :=
            { s.ic with
              stations := Table.build after, ports := s.ic.ports.set p.ix ⟨pass, count⟩
              channels :=
                s.ic.channels.update fun _ x => x.bind fun page => if gone page.station then none else some page }
          net :=
            { s.net with
              stationToIs := s.net.stationToIs.set p.ix q
              isToZm :=
                s.net.isToZm
                  ++ ((List.finRange 64).flatMap fun st =>
                    if gone st then
                      (match (old st).standing with
                        | .paging c =>
                          match s.ic.channels.get c with
                          | some page =>
                            [.release (match page.cls with | .live => .live c | .ev => .ev c) page.admitted,
                              .pageChannel c none]
                          | none => []
                        | _ => [])
                        ++ (if (old st).keyDown then [.talkKey st false] else [])
                        ++ match (old st).standing with
                          | .talking _ | .group _ => [.standing st .none]
                          | _ => []
                    else [])
                  ++ (List.finRange 64).flatMap fun st =>
                    match (old st).standing with
                    | .talking x => if gone st && !gone x then [.standing x .none] else []
                    | _ => [] } } : State).settles t

/-! ## The muster alarm -/

/-- R116, R117, R118, R119, R120, R121. A change of pass of a panel route is stored, and the active route changes where the
table of R117 says, with the run and the revert count restarted. An arrival on the active route moves the run by the
table of R120, and one that brings it to K takes the command within the arrival; an arrival on PA while PB is
active moves the revert count and may revert the route; one on PB while PA is active does nothing. -/
def Obligations.PanelRoutesAndRunsMove : Prop :=
  ∀ (s v : State) (p : PanelPort) (m : MauMsg) (q : List MauMsg) (copy : PanelPort → Bool), s.mau.awaiting = none →
    s.net.panelToMau.get p.ix = m :: q →
    v = { s with net := { s.net with panelToMau := s.net.panelToMau.set p.ix q } } →
    (copy .pa = s.mau.passA ∧ copy .pb = s.mau.passB) →
    (∀ (b : Bool) (n : Mau), m = .pass b →
      n = (match p with | .pa => { s.mau with passA := b } | .pb => { s.mau with passB := b }) →
      ((p = s.mau.active ∧ b = false ∧ copy p.other = true) →
        ∃ t, exec (.panelPassChange p) s = .next t
          ∧ ({ v with mau := { n with active := p.other, run := ⟨none, 0, false⟩, revert := 0 } } : State).settles t)
      ∧ ((p ≠ s.mau.active ∧ b = true ∧ copy s.mau.active = false) →
        ∃ t, exec (.panelPassChange p) s = .next t
          ∧ ({ v with mau := { n with active := p, run := ⟨none, 0, false⟩, revert := 0 } } : State).settles t)
      ∧ ((p ≠ s.mau.active ∧ b = false ∧ p = .pa) → ∃ t, exec (.panelPassChange p) s = .next t
        ∧ ({ v with mau := { n with revert := 0 } } : State).settles t)
      ∧ ((p = s.mau.active ∧ (b = true ∨ copy p.other = false)
          ∨ p ≠ s.mau.active ∧ (b = true ∧ copy s.mau.active = true ∨ b = false ∧ p = .pb)) →
        ∃ t, exec (.panelPassChange p) s = .next t ∧ ({ v with mau := n } : State).settles t))
    ∧ ∀ (content : Option PanelContent) (mark : Bool), m = .arrival content mark →
        (p ≠ s.mau.active →
          (p = .pb → ∃ t, exec (.panelFrameArrival p) s = .next t ∧ v.settles t)
          ∧ ∀ n, p = .pa → n = (if content ≠ none ∧ mark = false then min s.mau.r (s.mau.revert + 1) else 0) →
              (n = s.mau.r → s.mau.passA = true → ∃ t, exec (.panelFrameArrival p) s = .next t
                ∧ ({ v with mau := { s.mau with active := .pa, run := ⟨none, 0, false⟩, revert := 0 } } : State).settles t)
              ∧ ((n ≠ s.mau.r ∨ s.mau.passA = false) → ∃ t, exec (.panelFrameArrival p) s = .next t
                ∧ ({ v with mau := { s.mau with revert := n } } : State).settles t))
        ∧ (p = s.mau.active → ∀ run : Run,
            run =
              (match content with
              | some ⟨some c, id⟩ =>
                if mark = true ∨ s.mau.run.candidate ≠ some (c, id) then ⟨some (c, id), 1, false⟩
                else if s.mau.run.spent then s.mau.run else { s.mau.run with count := s.mau.run.count + 1 }
              | _ => ⟨none, 0, false⟩) →
            ((run.count ≠ s.mau.k ∨ run.spent = true ∨ run.candidate = none) →
              ∃ t, exec (.panelFrameArrival p) s = .next t
                ∧ ({ v with mau := { s.mau with run := run } } : State).settles t)
            ∧ ∀ (c : PanelCommand) (id : BitVec 8) (row : Instr), run.count = s.mau.k → run.spent = false →
                run.candidate = some (c, id) →
                (c, row) ∈ [(PanelCommand.alert, Instr.alert), (.general, .general), (.abandon, .abandon),
                  (.silence, .silence), (.resound, .resound), (.standDown, .standDown)] →
                ∃ t t', exec (.panelFrameArrival p) s = .next t
                  ∧ exec row { v with mau := { s.mau with run := run } } = .next t' ∧ t'.sameBlocks t)

/-- R121 to R128, R130, R133. A confirmed command is taken and its run spent. ALERT, GENERAL and ABANDON raise the stage only
to a higher one: the tone restarts on the stage's pattern, ZM is sent the stage's claim, GENERAL and ABANDON preempt
announcements and hold the show, and a running test ends PREEMPTED. SILENCE, RESOUND and STAND_DOWN act in a stage
(SILENCE when not silenced, RESOUND when silenced). A command that does nothing is counted. -/
def Obligations.ConfirmedCommandsMoveTheStage : Prop :=
  ∀ (s v : State) (c : PanelCommand) (id : BitVec 8), s.mau.awaiting = none → s.mau.run.count = s.mau.k →
    s.mau.run.spent = false → s.mau.run.candidate = some (c, id) →
    v = { s with mau := { s.mau with run := { s.mau.run with spent := true } } } →
    ∀ ignored : State, ignored = { v with mau := { v.mau with ignored := min 65535 (s.mau.ignored + 1) } } →
    (∀ (row : Instr) (st : Stage) (slot : PatIx) (muster : Nat) (zones : Candidates),
      (row, c, st, slot, muster, zones) ∈
        [(Instr.alert, PanelCommand.alert, Stage.alert, (0 : PatIx), 0, Candidates.crew),
          (.general, .general, .general, 1, 1, .zones allZones), (.abandon, .abandon, .abandon, 2, 1, .zones allZones)] →
      (st.rank ≤ s.mau.stage.rank → ∃ t, exec row s = .next t ∧ ignored.settles t)
      ∧ (s.mau.stage.rank < st.rank → ∀ u : State,
          u =
            { v with
              mau :=
                { v.mau with
                  stage := st, silenced := false, gen := some (Gen.start s.mau.store slot .endless), test := none
                  awaiting :=
                    match st, s.mau.test with
                    | .alert, some x => some (.stageRelease x.mask)
                    | _, _ => some .stageOnly }
              net :=
                { s.net with
                  preemptions := s.net.preemptions + muster, alarmHolds := s.net.alarmHolds + muster
                  mauToZm :=
                    s.net.mauToZm ++ (if s.mau.silenced then [.silenced false] else [])
                      ++ [.claim (.alarm .stage) zones .any (some st)] } } →
          ((∀ x, s.mau.test = some x → x.origin = none) → ∃ t, exec row s = .next t ∧ u.settles t)
          ∧ ∀ x k, s.mau.test = some x → x.origin = some k → ∃ t, exec row s = .next t
              ∧ (u.completed k (.done .preempted (.test x.mask x.run))).settles t))
    ∧ (c = .silence →
        (s.mau.stage ≠ .idle → s.mau.silenced = false → ∃ t, exec .silence s = .next t
          ∧ ({ v with
              mau := { v.mau with silenced := true }
              net := { s.net with mauToZm := s.net.mauToZm ++ [.silenced true] } } : State).settles t)
        ∧ ((s.mau.stage = .idle ∨ s.mau.silenced = true) → ∃ t, exec .silence s = .next t ∧ ignored.settles t))
    ∧ (c = .resound →
        (s.mau.silenced = true → ∀ slot : PatIx,
          (s.mau.stage, slot) ∈ [(Stage.alert, 0), (.general, 1), (.abandon, 2)] → ∃ t, exec .resound s = .next t
            ∧ ({ v with
                mau := { v.mau with silenced := false, gen := some (Gen.start s.mau.store slot .endless) }
                net := { s.net with mauToZm := s.net.mauToZm ++ [.silenced false] } } : State).settles t)
        ∧ (s.mau.silenced = false → ∃ t, exec .resound s = .next t ∧ ignored.settles t))
    ∧ (c = .standDown →
        (s.mau.stage ≠ .idle → ∃ t, exec .standDown s = .next t
          ∧ ({ v with
              mau := { v.mau with stage := .idle, published := .idle, silenced := false, gen := none }
              net :=
                { s.net with
                  mauToZm :=
                    s.net.mauToZm ++ (if s.mau.silenced then [.silenced false] else [])
                      ++ [.release (.alarm .stage) allZones] } } : State).settles t)
        ∧ (s.mau.stage = .idle → ∃ t, exec .standDown s = .next t ∧ ignored.settles t))

/-- R130, R132, R134, R145 to R151. MAU's period start delivers a period of a running tone and counts a running test down; the
test's last period, or ALARM_TEST_END where none is left, ends it OK with its zones released, its slot completing unless a
software reset took it. A generator's period is
the waveform of its step from the phase it stands at; a start sets every field afresh, a chime's plays one pass of slot
3, or plays without end at a repeat count of 0; a step lasts its duration, the pattern repeats from its first
step after its last, and a generator that is bounded ends with its last pass. STEP_END is the end of a step
by itself. -/
def Obligations.TonesAndTestsRunByPeriods : Prop :=
  (∀ s : State, s.mau.awaiting = none → ∀ (gen : Option Gen) (out : List (Source × Period)),
    (s.mau.gen = none → gen = none ∧ out = []) →
    (∀ g, s.mau.gen = some g → gen = g.next s.mau.store ∧ out = [(.alarmTone, g.samples)]) →
    (s.mau.test = none → ∃ t, exec .mauPeriodStart s = .next t
      ∧ ({ s with
          mau := { s.mau with gen := gen }, net := { s.net with deliveries := s.net.deliveries ++ out } } :
          State).settles t)
    ∧ ∀ x, s.mau.test = some x →
        (2 ≤ x.left → ∃ t, exec .mauPeriodStart s = .next t
          ∧ ({ s with
              mau := { s.mau with gen := gen, test := some { x with left := x.left - 1, run := x.run + 1 } }
              net := { s.net with deliveries := s.net.deliveries ++ out } } : State).settles t)
        ∧ ∀ ends : State → Completion → State,
            (∀ v c, ends v c = match x.origin with | some k => v.completed k c | none => v) →
            (x.left = 1 → ∃ t, exec .mauPeriodStart s = .next t
              ∧ (ends
                  { s with
                    mau := { s.mau with gen := none, test := none }
                    net :=
                      { s.net with
                        deliveries := s.net.deliveries ++ out
                        mauToZm := s.net.mauToZm ++ [.release (.alarm .test) x.mask] } }
                  (.done .ok (.test x.mask (x.run + 1)))).settles t)
            ∧ (x.left = 0 → ∃ t, exec .alarmTestEnd s = .next t
              ∧ (ends
                  { s with
                    mau := { s.mau with gen := none, test := none }
                    net := { s.net with mauToZm := s.net.mauToZm ++ [.release (.alarm .test) x.mask] } }
                  (.done .ok (.test x.mask x.run))).settles t))
  ∧ (∀ (store : PatternStore) (g : Gen) (i : Nat) (st : Step), (store.get g.slot).steps[i]? = some st →
      g.stepStart store i =
        { g with
          step := i, left := st.duration, kind := st.kind, wave := st.wave, phase := 0
          amp := if st.kind = .on then ((8388607 * st.level + 16384) / 32768) else 0
          freq := if st.kind = .on then (st.freq * 4294967296 + 240000) / 480000 else 0 })
  ∧ (∀ (store : PatternStore) (slot : PatIx) (regime : Regime) (st : Step), (store.get slot).steps[0]? = some st →
      Gen.start store slot regime =
        { slot := slot, regime := regime, step := 0, left := st.duration, kind := st.kind, wave := st.wave, phase := 0
          amp := if st.kind = .on then ((8388607 * st.level + 16384) / 32768) else 0
          freq := if st.kind = .on then (st.freq * 4294967296 + 240000) / 480000 else 0 }
      ∧ ((store.get 3).repeats = 0 → Gen.chime store = Gen.start store 3 .endless)
      ∧ ((store.get 3).repeats ≠ 0 → Gen.chime store = Gen.start store 3 (.bounded 1)))
  ∧ (∀ (g : Gen) (i : Fin 48) (ph : Nat), ph = (g.phase.toNat + i.val * g.freq) % 4294967296 →
      g.samples.get i =
        match g.kind, g.wave with
        | .gap, _ => 0
        | .on, .square => if ph < 2147483648 then (g.amp : Int) else -(g.amp : Int)
        | .on, .triangle =>
          ((g.amp : Int)
            * (if ph / 65536 < 32768 then 2 * ((ph / 65536 : Nat) : Int) - 32768
              else 98303 - 2 * ((ph / 65536 : Nat) : Int))
            + 16384) / 32768)
  ∧ (∀ (store : PatternStore) (g on : Gen) (n : Nat), n = (store.get g.slot).steps.length →
      on = { g with left := g.left - 1, phase := g.phase + BitVec.ofNat 32 (48 * g.freq) } →
      (2 ≤ g.left → g.next store = some on)
      ∧ (g.left = 1 → g.step + 1 < n → g.next store = some (on.stepStart store (g.step + 1)))
      ∧ (g.left = 1 → g.step + 1 = n → g.regime = .endless → g.next store = some (on.stepStart store 0))
      ∧ (g.left = 1 → g.step + 1 = n → ∀ k, g.regime = .bounded k →
          (k ≤ 1 → g.next store = none)
          ∧ (2 ≤ k → g.next store = some ({ on with regime := .bounded (k - 1) }.stepStart store 0))))
  ∧ ∀ (s : State) (g : Gen) (next : Option Gen), g.left = 0 →
      (g.step + 1 < (s.mau.store.get g.slot).steps.length ∧ next = some (g.stepStart s.mau.store (g.step + 1))
        ∨ g.step + 1 = (s.mau.store.get g.slot).steps.length
          ∧ (g.regime = .endless ∧ next = some (g.stepStart s.mau.store 0)
            ∨ g.regime = .bounded 1 ∧ next = none)) →
      (s.mau.gen = some g → ∃ t, exec (.stepEnd .alarm) s = .next t
        ∧ ({ s with mau := { s.mau with gen := next } } : State).settles t)
      ∧ (∀ p, (s.au.players.get p).gen = some g → ∃ t, exec (.stepEnd (.player p)) s = .next t
          ∧ ({ s with
              au :=
                { s.au with
                  players := s.au.players.set p { s.au.players.get p with gen := next } } } : State).settles t)
      ∧ ∀ c x, s.ic.channels.get c = some x → x.gen = some g → ∃ t, exec (.stepEnd (.page c)) s = .next t
          ∧ ({ s with
              ic :=
                { s.ic with channels := s.ic.channels.set c (some { x with gen := next }) } } : State).settles t

/-! ## Stream audio -/

/-- R161, R47, R156, R157, R158, R159, R163, R172, R173, R33. SU's period start. A PAUSED channel stands still; one
that is STOPPED or in FAULT only fades. One that plays fades, and stops where a stop's fade arrives; with no block it
starves; with one it spends the lead period start, then delivers a period through its fader or counts it late, and at
the block's end, CONSUMED, stops, takes up the next block, PLAYING, or starves. Then it probes the descriptor it wants
and requests every period of its window. ZM learns of each that leaves RUNNING. Then a RUNNING show's clock rises by
one, and its cues fire in table order for as long as the trigger of the next one holds, each performing its actions on
what the one before it left; the mark of a firing is the model's (assumption 7). FADE_END and BLOCK_END are those ends
by themselves. That a due period whose mark was not requested is late, the cursor of a playing channel without a ring,
and the order of the channels are the model's (assumptions 21, 30 and 41). That sums of addresses are taken modulo 2^64
is the model's (assumption 26). -/
def Obligations.SuPeriodStartPlaysEveryChannel : Prop :=
  ∀ (s : State) (w : Show) (clock : Nat), w = s.su.theShow → clock = min 4294967295 (w.clock + 1) →
    (∀ (mid after : Stream → Chan) (out : Stream → List (Source × Period)) (writes reads : Stream → List Transfer)
      (due : Show → Nat → Cue → Prop) (v : Nat → State) (n : Nat),
      (∀ c, (s.su.channels.get c).playsPeriod c (mid c) (out c) (writes c)) →
      (∀ c, (mid c).looksAhead c (after c) (reads c)) →
      (∀ x i c, due x i c ↔ x.state = .running ∧ x.pointer = some i ∧ x.cues[i]? = some c
        ∧ match c.trigger with
          | .go => False
          | .at k => k ≤ x.clock
          | .follow k => min 4294967295 (x.lastFire + k) ≤ x.clock) →
      v 0 =
        { s with
          su :=
            { s.su with
              channels := Table.build after
              theShow := if w.state = .running then { w with clock := clock, firing := true } else w }
          net :=
            { s.net with
              suToZm :=
                s.net.suToZm ++ (List.finRange 16).flatMap fun c =>
                  if (s.su.channels.get c).state = .running ∧ (mid c).state ≠ .running then
                    [.streamRunning c false]
                  else []
              deliveries := s.net.deliveries ++ (List.finRange 16).flatMap out }
          bus :=
            { s.bus with
              waiting := s.bus.waiting ++ (List.finRange 16).flatMap fun c => writes c ++ reads c } } →
      (∀ k < n, ∃ (x : Show) (i : Nat) (c : Cue) (a : State), x = (v k).su.theShow ∧ due x i c
        ∧ a = c.actions.foldl (fun y action => y.act c.number action) (v k)
        ∧ v (k + 1) =
          { a with
            su :=
              { a.su with
                theShow :=
                  { x with
                    dropped := a.su.theShow.dropped, lastFire := x.clock
                    pointer := if i + 1 < x.cues.length then some (i + 1) else none
                    state := if i + 1 < x.cues.length then .running else .ended } } }) →
      (∀ i c, ¬due (v n).su.theShow i c) →
      ∃ t, exec .suPeriodStart s = .next t
        ∧ ({ v n with
            su :=
              { (v n).su with
                theShow := if w.state = .running then { (v n).su.theShow with firing := false } else w } } :
            State).settles t)
    ∧ (∀ (c : Stream) (r d : Chan), r = s.su.channels.get c → r.fader.step ≠ 0 → r.fader.current = r.fader.target →
        d = { r with fader := { r.fader with step := 0 } } →
        (r.stopPending = false → ∃ t, exec (.fadeEnd c) s = .next t
          ∧ ({ s with su := { s.su with channels := s.su.channels.set c d } } : State).settles t)
        ∧ (r.stopPending = true → (r.state = .running ∨ r.state = .starved) → ∃ t, exec (.fadeEnd c) s = .next t
            ∧ ({ s with
                su := { s.su with channels := s.su.channels.set c d.stopped }
                net :=
                  { s.net with
                    suToZm := s.net.suToZm ++ if r.state = .running then [.streamRunning c false] else [] }
                bus :=
                  { s.bus with
                    waiting :=
                      s.bus.waiting ++
                        match r.playing with
                        | some b => r.marksDescriptor c b.index 0xF8
                        | none => [] } } : State).settles t))
    ∧ ∀ (c : Stream) (r : Chan) (b : Playing), r = s.su.channels.get c → r.state = .running → r.playing = some b →
        b.len ≤ b.period →
        (b.last = true → ∃ t, exec (.blockEnd c) s = .next t
          ∧ ({ s with
              su := { s.su with channels := s.su.channels.set c { r.stopped with cursor := r.cursor } }
              net := { s.net with suToZm := s.net.suToZm ++ [.streamRunning c false] }
              bus := { s.bus with waiting := s.bus.waiting ++ r.marksDescriptor c b.index 0xF8 } } : State).settles t)
        ∧ (b.last = false → r.next = none → ∃ t, exec (.blockEnd c) s = .next t
          ∧ ({ s with
              su :=
                { s.su with
                  channels :=
                    s.su.channels.set c
                      { r with
                        state := .starved, cursor := r.following r.cursor, playing := none, marks := [] } }
              net := { s.net with suToZm := s.net.suToZm ++ [.streamRunning c false] }
              bus := { s.bus with waiting := s.bus.waiting ++ r.marksDescriptor c b.index 0xF8 } } : State).settles t)
        ∧ (b.last = false → ∀ (n : NextBlock) (e : Chan), r.next = some n →
            e =
              { r with
                cursor := r.following r.cursor, playing := some ⟨n.index, n.addr, n.len, n.last, 0, false⟩, next := none
                marks := r.marks.filter fun m => decide (m.index = n.index) } →
            ∃ t, exec (.blockEnd c) s = .next t
              ∧ ({ s with
                  su := { s.su with channels := s.su.channels.set c e.requested }
                  bus :=
                    { s.bus with
                      waiting :=
                        s.bus.waiting
                          ++ (r.marksDescriptor c b.index 0xF8 ++ r.marksDescriptor c n.index 0xFC ++ e.requests c) } } :
                  State).settles t)

/-- R155 to R157, R159, R160, R162, R26. What the completions of a channel's traffic do. A probe that finds its
descriptor FULL makes it the playing block of a channel that has none, PLAYING, its first periods requested, the
channel RUNNING or, PAUSED, to return to RUNNING; or else the next block, and every period of the window is requested;
one not FULL starves a channel that was priming; a block that is not aligned and a bus error put the channel in FAULT.
A block fetch completes the mark of its period. Completions of an earlier start, or that the channel no longer awaits,
do nothing. That sums of addresses are taken modulo 2^64 is the model's (assumption 26). -/
def Obligations.StreamCompletionsFillTheWindow : Prop :=
  ∀ (s v : State) (c : Stream) (r : Chan) (fault : State), r = s.su.channels.get c →
    v = { s with bus := { s.bus with current := none } } →
    fault =
      { v with
        su :=
          { s.su with
            channels :=
              s.su.channels.set c
                { r with
                  state := .fault, playing := none, next := none, marks := [], probe := none, stopPending := false } }
        net :=
          { s.net with
            suToZm :=
              s.net.suToZm ++
                if r.state = .running ∨ r.state = .paused .running then [.streamRunning c false] else [] } } →
    (∀ (i start wanted : Nat) (g : Ring), s.inProgress = some (.probe c i start) → r.ring = some g →
      wanted = (if r.playing = none then r.cursor else (r.cursor + 1) % g.count) →
      (∀ b, (start ≠ r.startNumber ∨ r.state = .stopped ∨ r.state = .fault ∨ i ≠ wanted) →
        ∃ t, exec (.probeComplete b) s = .next t ∧ v.settles t)
      ∧ (start = r.startNumber → i = wanted → r.state ≠ .stopped → r.state ≠ .fault →
          (∃ t, exec (.probeComplete .busError) s = .next t ∧ fault.settles t)
          ∧ ∀ (b : Table 16 Byte) (d : Descriptor) (flags len : Nat),
              bears [(0, 1, d.state.toNat), (1, 1, flags), (2, 2, d.length), (8, 8, d.block.toNat)] b.toList →
              d.last = decide (flags % 2 = 1) → len = max 1 (min 1000 d.length) →
              (d.state = 0xFE → d.block.toNat % 64 ≠ 0 →
                ∃ t, exec (.probeComplete (.data b)) s = .next t ∧ fault.settles t)
              ∧ (d.state ≠ 0xFE → r.playing = none → ∃ t, exec (.probeComplete (.data b)) s = .next t
                ∧ ({ v with
                    su :=
                      { s.su with
                        channels :=
                          s.su.channels.set c
                            { r with
                              probe := none
                              state :=
                                match r.state with
                                | .running => .starved
                                | .paused _ => .paused .starved
                                | x => x } }
                    net :=
                      { s.net with
                        suToZm :=
                          s.net.suToZm ++ if r.state = .running then [.streamRunning c false] else [] } } :
                    State).settles t)
              ∧ (d.state ≠ 0xFE → r.playing ≠ none → ∃ t, exec (.probeComplete (.data b)) s = .next t
                ∧ ({ v with
                    su := { s.su with channels := s.su.channels.set c { r with probe := none } } } : State).settles t)
              ∧ (d.state = 0xFE → d.block.toNat % 64 = 0 → r.playing = none → r.next = none →
                  ∀ ks : List Nat, ks = (if 2 ≤ len then [0, 1] else [0]) →
                  ∃ t, exec (.probeComplete (.data b)) s = .next t
                    ∧ ({ v with
                        su :=
                          { s.su with
                            channels :=
                              s.su.channels.set c
                                { r with
                                  probe := none, playing := some ⟨i, d.block, len, d.last, 0, true⟩
                                  state :=
                                    match r.state with
                                    | .paused _ => .paused .running
                                    | _ => .running
                                  marks := ks.map fun k => ⟨i, k, none⟩ } }
                        net :=
                          { s.net with
                            suToZm :=
                              s.net.suToZm ++ if r.state = .starved then [.streamRunning c true] else [] }
                        bus :=
                          { v.bus with
                            waiting :=
                              s.bus.waiting
                                ++ ⟨.descriptor c start, g.base + BitVec.ofNat 64 (16 * i), 1, [0xFC], true⟩
                                  :: ks.map fun k =>
                                    ⟨.block c i k start, d.block + BitVec.ofNat 64 (192 * k), 192, [], true⟩ } } :
                        State).settles t)
              ∧ (d.state = 0xFE → d.block.toNat % 64 = 0 → r.playing ≠ none →
                  ∀ e : Chan, e = { r with probe := none, next := some ⟨i, d.block, len, d.last⟩ } →
                  ∃ t, exec (.probeComplete (.data b)) s = .next t
                    ∧ ({ v with
                        su :=
                          { s.su with channels := s.su.channels.set c e.requested }
                        bus := { v.bus with waiting := s.bus.waiting ++ e.requests c } } : State).settles t)))
    ∧ (∀ i k start, s.inProgress = some (.block c i k start) →
        (∀ b, (start ≠ r.startNumber ∨ r.state = .stopped ∨ r.state = .fault
            ∨ ∀ m ∈ r.marks, m.index ≠ i ∨ m.period ≠ k) →
          ∃ t, exec (.blockFetchComplete b) s = .next t ∧ v.settles t)
        ∧ (start = r.startNumber → r.state ≠ .stopped → r.state ≠ .fault →
            (∃ m ∈ r.marks, m.index = i ∧ m.period = k) →
            (∃ t, exec (.blockFetchComplete .busError) s = .next t ∧ fault.settles t)
            ∧ ∀ (b : Table 192 Byte) (x : Period),
                (∀ n : Fin 48, x.get n = max (-8388608) (min 8388607 (fieldBits b (4 * n.val) 4).toInt)) →
                ∃ t, exec (.blockFetchComplete (.data b)) s = .next t
                  ∧ ({ v with
                      su :=
                        { s.su with
                          channels :=
                            s.su.channels.set c
                              { r with
                                marks :=
                                  r.marks.map fun m =>
                                    if m.index = i ∧ m.period = k then { m with samples := some x } else m } } } :
                      State).settles t))
    ∧ ∀ start, s.inProgress = some (.descriptor c start) →
        (∃ t, exec (.descriptorWriteComplete false) s = .next t ∧ v.settles t)
        ∧ (start ≠ r.startNumber → ∃ t, exec (.descriptorWriteComplete true) s = .next t ∧ v.settles t)
        ∧ (start = r.startNumber → r.state ≠ .fault →
            ∃ t, exec (.descriptorWriteComplete true) s = .next t ∧ fault.settles t)
        ∧ (start = r.startNumber → r.state = .fault →
            ∃ t, exec (.descriptorWriteComplete true) s = .next t ∧ v.settles t)

/-! ## Link ports -/

/-- R183, R184, R186, R187, R189, R192. The lock of a port. Signal present takes a DOWN port to ACQUIRE; four frames running
take it to LOCKED, passing at once where its score is 16 or less; three missing frames take it back to ACQUIRE and a
loss of signal to DOWN, each a lock loss that takes pass away; and the port's user is told of a pass state that
changed. -/
def Obligations.ReceiversLockAndUnlock : Prop :=
  ∀ (s : State) (p : Port) (r : Rx) (put : Rx → State) (told : Bool → State → State), r = s.lp.rx.get p.ix →
    (∀ x, put x = { s with lp := { s.lp with rx := s.lp.rx.set p.ix x } }) →
    (∀ b v,
      (∀ k : StationPort, k.port = p →
        told b v =
          { v with
            net :=
              { v.net with
                stationToIs :=
                  v.net.stationToIs.set k.ix
                    (v.net.stationToIs.get k.ix ++ [.condition b (s.lp.slots.get k.ix).count]) } })
      ∧ (∀ k : PanelPort, k.port = p →
          told b v =
            { v with
              net :=
                { v.net with
                  panelToMau := v.net.panelToMau.set k.ix (v.net.panelToMau.get k.ix ++ [.pass b]) } })
      ∧ ∀ k : AmpPort, k.port = p →
          told b v =
            if b then v
            else
              { v with
                net :=
                  { v.net with
                    ampToZm := v.net.ampToZm.set k.ix (v.net.ampToZm.get k.ix ++ [.passLoss]) } }) →
    ((r.lock = .down → ∃ t, exec (.signalPresent p) s = .next t
        ∧ (put { r with signal := true, lock := .acquire, acquired := 0 }).settles t)
      ∧ (r.lock ≠ .down → ∃ t, exec (.signalPresent p) s = .next t ∧ (put { r with signal := true }).settles t))
    ∧ ((r.lock = .down → ∃ t, exec (.signalLost p) s = .next t ∧ (put { r with signal := false }).settles t)
      ∧ (r.lock = .acquire → ∃ t, exec (.signalLost p) s = .next t
          ∧ (put { r with signal := false, lock := .down }).settles t))
    ∧ ((r.lock = .down → ∃ t, exec (.frameMissing p) s = .next t ∧ s.settles t)
      ∧ (r.lock = .acquire → ∃ t, exec (.frameMissing p) s = .next t ∧ (put { r with acquired := 0 }).settles t)
      ∧ (r.lock = .locked → r.missed < 2 → ∃ t, exec (.frameMissing p) s = .next t
          ∧ (put { r with missed := r.missed + 1 }).settles t))
    ∧ (∀ (c : Instr) (n : Rx), r.lock = .locked →
        (c = .signalLost p ∧ n = { r with signal := false, lock := .down }
          ∨ c = .frameMissing p ∧ 2 ≤ r.missed ∧ n = { r with lock := .acquire, acquired := 0, missed := 3 }) →
        (r.pass = true → ∃ t, exec c s = .next t
          ∧ (told false (put
              { n with
                expected := none, pass := false
                lockLosses := min 65535 (r.lockLosses + 1) })).settles t)
        ∧ (r.pass = false → ∃ t, exec c s = .next t
          ∧ (put
              { n with
                expected := none, pass := false
                lockLosses := min 65535 (r.lockLosses + 1) }).settles t))
    ∧ ∀ (c : Instr) (arrive : State → State), r.lock = .acquire → r.pass = false →
        ((∃ k f, StationPort.port k = p ∧ c = .stationFrame k f ∧ ∀ x, arrive x = x)
          ∨ (∃ k f, AmpPort.port k = p ∧ c = .backChannelFrame k f ∧ ∀ x, arrive x = x)
          ∨ ∃ k f, PanelPort.port k = p ∧ c = .panelFrame k f ∧ ∀ x, arrive x =
              { x with
                net :=
                  { x.net with
                    panelToMau :=
                      x.net.panelToMau.set k.ix (x.net.panelToMau.get k.ix ++ [.arrival none false]) } }) →
        (r.acquired < 3 → ∃ t, exec c s = .next t ∧ (arrive (put { r with acquired := r.acquired + 1 })).settles t)
        ∧ (3 ≤ r.acquired → 16 < r.score → ∃ t, exec c s = .next t
            ∧ (arrive (put { r with lock := .locked, acquired := 4, missed := 0, expected := none })).settles t)
        ∧ (3 ≤ r.acquired → r.score ≤ 16 → ∃ t, exec c s = .next t
            ∧ (arrive (told true (put
                { r with
                  lock := .locked, acquired := 4, missed := 0, expected := none, pass := true }))).settles t)

/-- R114, R115, R184, R185, R186, R187, R189, R192, R195. A frame taken in LOCKED: its check and its sequence decide whether
it is clean, the score falls by 1 or rises by 16, the counters and pass follow. A station frame that is accepted
announces its slots; the condition comes first where it changed, then the control words of an accepted frame, and the
microphone periods of the slots go to ZM in any case. A panel frame hands MAU its arrival behind any change of pass.
A back-channel frame that is accepted on a port that then passes hands ZM its line statuses. And what stands on a
port's line is such a frame where it begins with the sync word, its fields following as R195 lists them, and a missing
frame where it does not. That a receive frame time comes to its command so, and the order of the control words of one
frame, are the model's (assumptions 25 and 36). -/
def Obligations.FramesTakenAreScoredAndHandedOn : Prop :=
  ∀ (s : State) (p : Port) (r n : Rx) (good mark : Bool) (sequence : BitVec 4), r = s.lp.rx.get p.ix → r.lock = .locked →
    (mark = true ↔ good = true ∧ ∃ e, r.expected = some e ∧ e ≠ sequence) →
    n =
      { r with
        missed := 0
        expected := if good then some (sequence + 1) else r.expected.map fun e => e + 1
        score := if good && !mark then r.score - 1 else min 255 (r.score + 16)
        crcErrors := if good then r.crcErrors else min 65535 (r.crcErrors + 1)
        seqErrors := if mark then min 65535 (r.seqErrors + 1) else r.seqErrors
        pass := n.pass } →
    (n.pass = true ↔ n.score ≤ 16 ∨ n.score < 64 ∧ r.pass = true) →
    (∀ (k : StationPort) (f : StationFrame) (old new : SlotCount) (slots : List (Fin 32)), k.port = p →
      good =
        decide (f.crc = crc16
          (bitsOf f.sequence ++ bitsOf f.slotCount ++ bitsOf f.reserved
            ++ (List.finRange 32).flatMap fun i =>
              bitsOf (f.words.get i).event ++ bitsOf (f.words.get i).arg ++ bitsOf (f.words.get i).counter)) →
      sequence = f.sequence → old = s.lp.slots.get k.ix →
      new =
        (if good = true ∧ min 32 f.slotCount.toNat ≠ old.count then
          ⟨min 32 f.slotCount.toNat, decide (min 32 f.slotCount.toNat ≠ 32)⟩
        else old) →
      slots = (List.finRange 32).filter (fun i => decide (i.val < new.count)) →
      ∃ t mics, exec (.stationFrame k f) s = .next t
        ∧ ({ s with
            lp := { s.lp with rx := s.lp.rx.set p.ix n, slots := s.lp.slots.set k.ix new }
            net :=
              { s.net with
                stationToIs :=
                  s.net.stationToIs.set k.ix
                    (s.net.stationToIs.get k.ix
                      ++ (if n.pass = r.pass ∧ new.count = old.count then [] else [.condition n.pass new.count])
                      ++ if good then slots.map fun i => .word (k.station i) (f.words.get i) else [])
                deliveries := s.net.deliveries ++ mics } } : State).settles t
        ∧ mics.map Prod.fst = slots.map (fun i => Source.mic (k.station i))
        ∧ ∀ x ∈ mics, ∃ i ∈ slots, x.1 = .mic (k.station i)
          ∧ ∀ j, x.2.get j = ((f.audio.get i).get j).toInt)
    ∧ (∀ (k : PanelPort) (f : PanelFrame) (content : Option PanelContent) (cmd : Option PanelCommand), k.port = p →
        good = decide (f.crc = crc8 (bitsOf f.sequence ++ bitsOf f.command ++ bitsOf f.identity)) →
        sequence = f.sequence →
        ((f.command, cmd) ∈ [((1 : BitVec 4), some PanelCommand.alert), (2, some .general), (3, some .abandon),
            (4, some .silence), (5, some .resound), (6, some .standDown), (15, none)] ∧ good = true
              ∧ content = some ⟨cmd, f.identity⟩
          ∨ (f.command ∉ [(1 : BitVec 4), 2, 3, 4, 5, 6, 15] ∨ good = false) ∧ content = none) →
        ∃ t, exec (.panelFrame k f) s = .next t
          ∧ ({ s with
              lp := { s.lp with rx := s.lp.rx.set p.ix n }
              net :=
                { s.net with
                  panelToMau :=
                    s.net.panelToMau.set k.ix
                      (s.net.panelToMau.get k.ix
                        ++ (if n.pass = r.pass then [] else [.pass n.pass]) ++ [.arrival content mark]) } } :
              State).settles t)
    ∧ (∀ (k : AmpPort) (f : BackFrame) (v : Table 16 LineStatus), k.port = p →
        good = decide (f.crc = crc16 (bitsOf f.sequence ++ bitsOf f.reserved ++ f.lines.toList.flatMap bitsOf)) →
        sequence = f.sequence →
        (∀ i, (f.lines.get i, v.get i) ∈
          [((0 : BitVec 2), LineStatus.ok), (1, .opened), (2, .short), (3, .ampFault)]) →
        ∃ t, exec (.backChannelFrame k f) s = .next t
          ∧ ({ s with
              lp := { s.lp with rx := s.lp.rx.set p.ix n }
              net :=
                { s.net with
                  ampToZm :=
                    s.net.ampToZm.set k.ix
                      (s.net.ampToZm.get k.ix
                        ++ (if r.pass = true ∧ n.pass = false then [.passLoss] else [])
                        ++ if good = true ∧ n.pass = true then [.report v] else []) } } : State).settles t)
    ∧ (∀ (k : StationPort) (f : StationFrame) (bits : List Bool),
        bits =
          bitsOf (0xE4A7 : BitVec 16) ++ bitsOf f.sequence ++ bitsOf f.slotCount ++ bitsOf f.reserved
            ++ ((List.finRange 32).flatMap fun i =>
              bitsOf (f.words.get i).event ++ bitsOf (f.words.get i).arg ++ bitsOf (f.words.get i).counter)
            ++ bitsOf f.crc
            ++ ((List.finRange 32).flatMap fun i =>
              (List.finRange 48).flatMap fun j => bitsOf ((f.audio.get i).get j)) →
        stationArrival k bits = .stationFrame k f)
    ∧ (∀ (k : PanelPort) (f : PanelFrame),
        panelArrival k
            (bitsOf (0xD31C : BitVec 16) ++ bitsOf f.sequence ++ bitsOf f.command ++ bitsOf f.identity ++ bitsOf f.crc) =
          .panelFrame k f)
    ∧ (∀ (k : AmpPort) (f : BackFrame),
        backArrival k
            (bitsOf (0xA96F : BitVec 16) ++ bitsOf f.sequence ++ bitsOf f.reserved
              ++ ((List.finRange 16).flatMap fun i => bitsOf (f.lines.get i)) ++ bitsOf f.crc) =
          .backChannelFrame k f)
    ∧ (∀ (l : List Bool) (b : Bool),
        crc16 [] = 0xFFFF ∧ crc8 [] = 0
        ∧ crc16 (l ++ [b]) = (if (crc16 l).getLsbD 15 = b then crc16 l <<< 1 else (crc16 l <<< 1) ^^^ 0x1021)
        ∧ crc8 (l ++ [b]) = (if (crc8 l).getLsbD 7 = b then crc8 l <<< 1 else (crc8 l <<< 1) ^^^ 0x07))
    ∧ (∀ (n : Nat) (v : BitVec n), bitsOf v = (List.finRange n).map fun i => v.getLsbD (n - 1 - i.val))
    ∧ ∀ (sync : BitVec 16) (bits : List Bool),
        (∀ k, sync ≠ 0xE4A7 → stationArrival k (bitsOf sync ++ bits) = .frameMissing k.port)
        ∧ (∀ k, sync ≠ 0xD31C → panelArrival k (bitsOf sync ++ bits) = .frameMissing k.port)
        ∧ ∀ k, sync ≠ 0xA96F → backArrival k (bitsOf sync ++ bits) = .frameMissing k.port

/-- R188, R190, R191, R195, R41, R74. What a port sends at its frame, bit by bit: its sync word, the next sequence number,
the fields R195 lists with their zeros, their check and the audio; a station port the indicator and, where it is fresh,
the earpiece period of each of its stations; a panel port the published stage, the silenced flag and whether it is the
active route; an amplifier port the override and mute bits and, where fresh, the period of each of its zones. The
buffers sent are no longer fresh, and nothing else changes. That the stage sent is the published one, and the field of
State in which the frame sent last stands, are the model's (assumptions 12 and 19). The code of a PAGING station whose
channel carries no page, which no run reaches, is left unsaid. -/
def Obligations.TransmitsSendWhatStands : Prop :=
  ∀ (s : State) (sound : Held → List Bool) (stale : Held → Held) (code : Station → BitVec 4),
    (∀ st, code st =
      match (s.ic.stations.get st).standing with
      | .offline | .idle .quiet => 0
      | .ringing _ _ => 1
      | .calling _ => 2
      | .waiting _ _ => 3
      | .idle .busyDenied => 4
      | .talking _ => 5
      | .group _ => 6
      | .paging ch =>
        match s.ic.channels.get ch with
        | some p => if p.phase = .chime then 7 else 8
        | none => (s.ic.indicator st).code
      | .idle .noAnswer => 9) →
    (∀ h, sound h =
      if h.fresh then (List.finRange 48).flatMap fun j => bitsOf (BitVec.ofInt 24 (h.samples.get j))
      else List.replicate 1152 false) →
    (∀ h, stale h = { h with fresh := false }) →
    (∀ (k : StationPort) (covered : List Bool),
      covered =
        bitsOf (s.lp.outSeq.get k.port.ix) ++ [false, false, false, false]
          ++ (List.finRange 32).flatMap (fun i => bitsOf (code (k.station i))) →
      ∃ t, exec (.stationTransmit k) s = .next t
        ∧ ({ s with
            lp :=
              { s.lp with
                outSeq := s.lp.outSeq.set k.port.ix (s.lp.outSeq.get k.port.ix + 1)
                sent :=
                  s.lp.sent.set k.port.ix
                    (bitsOf (0xE4B8 : BitVec 16) ++ covered ++ bitsOf (crc16 covered)
                      ++ (List.finRange 32).flatMap fun i => sound (s.lp.stationTx.get (k.station i)))
                stationTx :=
                  s.lp.stationTx.update fun st h => if st.val / 32 = k.ix.val then stale h else h } } : State).settles t)
    ∧ (∀ (k : PanelPort) (stage : BitVec 2) (covered : List Bool),
        (s.mau.published, stage) ∈ [(Stage.idle, 0), (.alert, 1), (.general, 2), (.abandon, 3)] →
        covered =
          bitsOf (s.lp.outSeq.get k.port.ix) ++ bitsOf stage ++ [s.mau.silenced, decide (s.mau.active = k)] →
        ∃ t, exec (.panelTransmit k) s = .next t
          ∧ ({ s with
              lp :=
                { s.lp with
                  outSeq := s.lp.outSeq.set k.port.ix (s.lp.outSeq.get k.port.ix + 1)
                  sent :=
                    s.lp.sent.set k.port.ix (bitsOf (0xD32D : BitVec 16) ++ covered ++ bitsOf (crc8 covered)) } } :
              State).settles t)
    ∧ ∀ (k : AmpPort) (covered : List Bool),
        covered =
          bitsOf (s.lp.outSeq.get k.port.ix) ++ [false, false, false, false]
            ++ (List.finRange 16).flatMap (fun i =>
              [(s.lp.zoneTx.get (k.zone i)).override, (s.lp.zoneTx.get (k.zone i)).mute]) →
        ∃ t, exec (.amplifierTransmit k) s = .next t
          ∧ ({ s with
              lp :=
                { s.lp with
                  outSeq := s.lp.outSeq.set k.port.ix (s.lp.outSeq.get k.port.ix + 1)
                  sent :=
                    s.lp.sent.set k.port.ix
                      (bitsOf (0xA95E : BitVec 16) ++ covered ++ bitsOf (crc16 covered)
                        ++ (List.finRange 16).flatMap fun i => sound (s.lp.zoneTx.get (k.zone i)).buffer)
                  zoneTx :=
                    s.lp.zoneTx.update fun z x =>
                      if z.val / 16 = k.ix.val then { x with buffer := stale x.buffer } else x } } : State).settles t

/-! ## Invariants -/

/-- R2, R3, R17, R51, R116, R119, R135, R140. Every step keeps every zone record and every stored pattern in its ranges, every
override bit the one its holders give, the wait list within 16 entries, the active route one that passes wherever one
does, and the confirmation run within its length. -/
def Obligations.StepsKeepRecordsInRange : Prop :=
  ∀ s t : State,
    (s.zm.inRange ∧ s.zm.overridesRight ∧ s.au.listBounded ∧ s.mau.storeInRange ∧ s.mau.routeSound ∧ s.mau.runSound) →
    step s = .next t →
    t.zm.inRange ∧ t.zm.overridesRight ∧ t.au.listBounded ∧ t.mau.storeInRange ∧ t.mau.routeSound ∧ t.mau.runSound

/-- R73, R77, R99. Every step keeps the stations in one conversation structure: calls and rings in pairs, waiting lists of at
most four that agree with their waiters, pages that agree with their channels, and stations online exactly where their
port reaches them. -/
def Obligations.StepsKeepOneConversationStructure : Prop :=
  ∀ s t : State, s.ic.sound → step s = .next t → t.ic.sound

/-- R134, R213, R214. Every step keeps each TAKEN slot named by exactly one job record or dispatch and no other slot by
any, and the slot traffic in flight in step with the slots. Where that holds, the slots whose job the records give are
the TAKEN ones. -/
def Obligations.StepsKeepTakenSlotsNamedOnce : Prop :=
  (∀ s t : State, s.slotsSound → step s = .next t → t.slotsSound)
  ∧ ∀ s : State, s.slotsSound → ∀ k, (s.jobOf k).isSome = true ↔ (s.xu.shadows.get k).isTaken = true

/-- R122, R123, R128. Every step keeps every zone held for the stage while GENERAL or ABANDON is published, no release of
ALARM on its way to ZM then, no test in a stage, and at most one claim of ALARM in flight. -/
def Obligations.StepsKeepTheMusterHeld : Prop :=
  ∀ s t : State, s.alarmSound → step s = .next t → t.alarmSound
end

