-- ==== Sys2Proof/Laws/State.lean ====
section
/-! SUPPORT. One lemma per field per update of the state, so that no proof unfolds an update. -/

namespace Sys2Proof.Machine

/-! ## Updates of one block -/

section
variable (s : State) (f : Xu → Xu)
@[simp] theorem State.modXu_pending : (s.modXu f).pending = s.pending := rfl
@[simp] theorem State.modXu_xu : (s.modXu f).xu = f s.xu := rfl
@[simp] theorem State.modXu_bus : (s.modXu f).bus = s.bus := rfl
@[simp] theorem State.modXu_zm : (s.modXu f).zm = s.zm := rfl
@[simp] theorem State.modXu_au : (s.modXu f).au = s.au := rfl
@[simp] theorem State.modXu_ic : (s.modXu f).ic = s.ic := rfl
@[simp] theorem State.modXu_mau : (s.modXu f).mau = s.mau := rfl
@[simp] theorem State.modXu_su : (s.modXu f).su = s.su := rfl
@[simp] theorem State.modXu_lp : (s.modXu f).lp = s.lp := rfl
@[simp] theorem State.modXu_net : (s.modXu f).net = s.net := rfl
end

section
variable (s : State) (f : Bus → Bus)
@[simp] theorem State.modBus_pending : (s.modBus f).pending = s.pending := rfl
@[simp] theorem State.modBus_xu : (s.modBus f).xu = s.xu := rfl
@[simp] theorem State.modBus_bus : (s.modBus f).bus = f s.bus := rfl
@[simp] theorem State.modBus_zm : (s.modBus f).zm = s.zm := rfl
@[simp] theorem State.modBus_au : (s.modBus f).au = s.au := rfl
@[simp] theorem State.modBus_ic : (s.modBus f).ic = s.ic := rfl
@[simp] theorem State.modBus_mau : (s.modBus f).mau = s.mau := rfl
@[simp] theorem State.modBus_su : (s.modBus f).su = s.su := rfl
@[simp] theorem State.modBus_lp : (s.modBus f).lp = s.lp := rfl
@[simp] theorem State.modBus_net : (s.modBus f).net = s.net := rfl
end

section
variable (s : State) (f : Zm → Zm)
@[simp] theorem State.modZm_pending : (s.modZm f).pending = s.pending := rfl
@[simp] theorem State.modZm_xu : (s.modZm f).xu = s.xu := rfl
@[simp] theorem State.modZm_bus : (s.modZm f).bus = s.bus := rfl
@[simp] theorem State.modZm_zm : (s.modZm f).zm = f s.zm := rfl
@[simp] theorem State.modZm_au : (s.modZm f).au = s.au := rfl
@[simp] theorem State.modZm_ic : (s.modZm f).ic = s.ic := rfl
@[simp] theorem State.modZm_mau : (s.modZm f).mau = s.mau := rfl
@[simp] theorem State.modZm_su : (s.modZm f).su = s.su := rfl
@[simp] theorem State.modZm_lp : (s.modZm f).lp = s.lp := rfl
@[simp] theorem State.modZm_net : (s.modZm f).net = s.net := rfl
end

section
variable (s : State) (f : Au → Au)
@[simp] theorem State.modAu_pending : (s.modAu f).pending = s.pending := rfl
@[simp] theorem State.modAu_xu : (s.modAu f).xu = s.xu := rfl
@[simp] theorem State.modAu_bus : (s.modAu f).bus = s.bus := rfl
@[simp] theorem State.modAu_zm : (s.modAu f).zm = s.zm := rfl
@[simp] theorem State.modAu_au : (s.modAu f).au = f s.au := rfl
@[simp] theorem State.modAu_ic : (s.modAu f).ic = s.ic := rfl
@[simp] theorem State.modAu_mau : (s.modAu f).mau = s.mau := rfl
@[simp] theorem State.modAu_su : (s.modAu f).su = s.su := rfl
@[simp] theorem State.modAu_lp : (s.modAu f).lp = s.lp := rfl
@[simp] theorem State.modAu_net : (s.modAu f).net = s.net := rfl
end

section
variable (s : State) (f : Ic → Ic)
@[simp] theorem State.modIc_pending : (s.modIc f).pending = s.pending := rfl
@[simp] theorem State.modIc_xu : (s.modIc f).xu = s.xu := rfl
@[simp] theorem State.modIc_bus : (s.modIc f).bus = s.bus := rfl
@[simp] theorem State.modIc_zm : (s.modIc f).zm = s.zm := rfl
@[simp] theorem State.modIc_au : (s.modIc f).au = s.au := rfl
@[simp] theorem State.modIc_ic : (s.modIc f).ic = f s.ic := rfl
@[simp] theorem State.modIc_mau : (s.modIc f).mau = s.mau := rfl
@[simp] theorem State.modIc_su : (s.modIc f).su = s.su := rfl
@[simp] theorem State.modIc_lp : (s.modIc f).lp = s.lp := rfl
@[simp] theorem State.modIc_net : (s.modIc f).net = s.net := rfl
end

section
variable (s : State) (f : Mau → Mau)
@[simp] theorem State.modMau_pending : (s.modMau f).pending = s.pending := rfl
@[simp] theorem State.modMau_xu : (s.modMau f).xu = s.xu := rfl
@[simp] theorem State.modMau_bus : (s.modMau f).bus = s.bus := rfl
@[simp] theorem State.modMau_zm : (s.modMau f).zm = s.zm := rfl
@[simp] theorem State.modMau_au : (s.modMau f).au = s.au := rfl
@[simp] theorem State.modMau_ic : (s.modMau f).ic = s.ic := rfl
@[simp] theorem State.modMau_mau : (s.modMau f).mau = f s.mau := rfl
@[simp] theorem State.modMau_su : (s.modMau f).su = s.su := rfl
@[simp] theorem State.modMau_lp : (s.modMau f).lp = s.lp := rfl
@[simp] theorem State.modMau_net : (s.modMau f).net = s.net := rfl
end

section
variable (s : State) (f : Su → Su)
@[simp] theorem State.modSu_pending : (s.modSu f).pending = s.pending := rfl
@[simp] theorem State.modSu_xu : (s.modSu f).xu = s.xu := rfl
@[simp] theorem State.modSu_bus : (s.modSu f).bus = s.bus := rfl
@[simp] theorem State.modSu_zm : (s.modSu f).zm = s.zm := rfl
@[simp] theorem State.modSu_au : (s.modSu f).au = s.au := rfl
@[simp] theorem State.modSu_ic : (s.modSu f).ic = s.ic := rfl
@[simp] theorem State.modSu_mau : (s.modSu f).mau = s.mau := rfl
@[simp] theorem State.modSu_su : (s.modSu f).su = f s.su := rfl
@[simp] theorem State.modSu_lp : (s.modSu f).lp = s.lp := rfl
@[simp] theorem State.modSu_net : (s.modSu f).net = s.net := rfl
end

section
variable (s : State) (f : Lp → Lp)
@[simp] theorem State.modLp_pending : (s.modLp f).pending = s.pending := rfl
@[simp] theorem State.modLp_xu : (s.modLp f).xu = s.xu := rfl
@[simp] theorem State.modLp_bus : (s.modLp f).bus = s.bus := rfl
@[simp] theorem State.modLp_zm : (s.modLp f).zm = s.zm := rfl
@[simp] theorem State.modLp_au : (s.modLp f).au = s.au := rfl
@[simp] theorem State.modLp_ic : (s.modLp f).ic = s.ic := rfl
@[simp] theorem State.modLp_mau : (s.modLp f).mau = s.mau := rfl
@[simp] theorem State.modLp_su : (s.modLp f).su = s.su := rfl
@[simp] theorem State.modLp_lp : (s.modLp f).lp = f s.lp := rfl
@[simp] theorem State.modLp_net : (s.modLp f).net = s.net := rfl
end

section
variable (s : State) (f : Net → Net)
@[simp] theorem State.modNet_pending : (s.modNet f).pending = s.pending := rfl
@[simp] theorem State.modNet_xu : (s.modNet f).xu = s.xu := rfl
@[simp] theorem State.modNet_bus : (s.modNet f).bus = s.bus := rfl
@[simp] theorem State.modNet_zm : (s.modNet f).zm = s.zm := rfl
@[simp] theorem State.modNet_au : (s.modNet f).au = s.au := rfl
@[simp] theorem State.modNet_ic : (s.modNet f).ic = s.ic := rfl
@[simp] theorem State.modNet_mau : (s.modNet f).mau = s.mau := rfl
@[simp] theorem State.modNet_su : (s.modNet f).su = s.su := rfl
@[simp] theorem State.modNet_lp : (s.modNet f).lp = s.lp := rfl
@[simp] theorem State.modNet_net : (s.modNet f).net = f s.net := rfl
end

/-! ## Updates of part of a block -/

section
variable (s : State)

@[simp] theorem State.raise_pending (k : BitVec 32) : (s.raise k).pending = s.pending := rfl
@[simp] theorem State.raise_xu (k : BitVec 32) : (s.raise k).xu = { s.xu with notice := s.xu.notice ||| k } := rfl
@[simp] theorem State.raise_bus (k : BitVec 32) : (s.raise k).bus = s.bus := rfl
@[simp] theorem State.raise_zm (k : BitVec 32) : (s.raise k).zm = s.zm := rfl
@[simp] theorem State.raise_au (k : BitVec 32) : (s.raise k).au = s.au := rfl
@[simp] theorem State.raise_ic (k : BitVec 32) : (s.raise k).ic = s.ic := rfl
@[simp] theorem State.raise_mau (k : BitVec 32) : (s.raise k).mau = s.mau := rfl
@[simp] theorem State.raise_su (k : BitVec 32) : (s.raise k).su = s.su := rfl
@[simp] theorem State.raise_lp (k : BitVec 32) : (s.raise k).lp = s.lp := rfl
@[simp] theorem State.raise_net (k : BitVec 32) : (s.raise k).net = s.net := rfl

@[simp] theorem State.issue_pending (ts : List Transfer) : (s.issue ts).pending = s.pending := rfl
@[simp] theorem State.issue_xu (ts : List Transfer) : (s.issue ts).xu = s.xu := rfl
@[simp] theorem State.issue_bus (ts : List Transfer) : (s.issue ts).bus = { s.bus with waiting := s.bus.waiting ++ ts } := rfl
@[simp] theorem State.issue_zm (ts : List Transfer) : (s.issue ts).zm = s.zm := rfl
@[simp] theorem State.issue_au (ts : List Transfer) : (s.issue ts).au = s.au := rfl
@[simp] theorem State.issue_ic (ts : List Transfer) : (s.issue ts).ic = s.ic := rfl
@[simp] theorem State.issue_mau (ts : List Transfer) : (s.issue ts).mau = s.mau := rfl
@[simp] theorem State.issue_su (ts : List Transfer) : (s.issue ts).su = s.su := rfl
@[simp] theorem State.issue_lp (ts : List Transfer) : (s.issue ts).lp = s.lp := rfl
@[simp] theorem State.issue_net (ts : List Transfer) : (s.issue ts).net = s.net := rfl

@[simp] theorem State.portFreed_pending : (s.portFreed).pending = s.pending := rfl
@[simp] theorem State.portFreed_xu : (s.portFreed).xu = s.xu := rfl
@[simp] theorem State.portFreed_bus : (s.portFreed).bus = { s.bus with current := none } := rfl
@[simp] theorem State.portFreed_zm : (s.portFreed).zm = s.zm := rfl
@[simp] theorem State.portFreed_au : (s.portFreed).au = s.au := rfl
@[simp] theorem State.portFreed_ic : (s.portFreed).ic = s.ic := rfl
@[simp] theorem State.portFreed_mau : (s.portFreed).mau = s.mau := rfl
@[simp] theorem State.portFreed_su : (s.portFreed).su = s.su := rfl
@[simp] theorem State.portFreed_lp : (s.portFreed).lp = s.lp := rfl
@[simp] theorem State.portFreed_net : (s.portFreed).net = s.net := rfl

@[simp] theorem State.sendZm_pending (u : Block) (m : ZmMsg) : (s.sendZm u m).pending = s.pending := rfl
@[simp] theorem State.sendZm_xu (u : Block) (m : ZmMsg) : (s.sendZm u m).xu = s.xu := rfl
@[simp] theorem State.sendZm_bus (u : Block) (m : ZmMsg) : (s.sendZm u m).bus = s.bus := rfl
@[simp] theorem State.sendZm_zm (u : Block) (m : ZmMsg) : (s.sendZm u m).zm = s.zm := rfl
@[simp] theorem State.sendZm_au (u : Block) (m : ZmMsg) : (s.sendZm u m).au = s.au := rfl
@[simp] theorem State.sendZm_ic (u : Block) (m : ZmMsg) : (s.sendZm u m).ic = s.ic := rfl
@[simp] theorem State.sendZm_mau (u : Block) (m : ZmMsg) : (s.sendZm u m).mau = s.mau := rfl
@[simp] theorem State.sendZm_su (u : Block) (m : ZmMsg) : (s.sendZm u m).su = s.su := rfl
@[simp] theorem State.sendZm_lp (u : Block) (m : ZmMsg) : (s.sendZm u m).lp = s.lp := rfl
@[simp] theorem State.sendZm_net (u : Block) (m : ZmMsg) : (s.sendZm u m).net = s.net.setToZm u (s.net.toZm u ++ [m]) := rfl

@[simp] theorem State.tookZm_pending (u : Block) : (s.tookZm u).pending = s.pending := rfl
@[simp] theorem State.tookZm_xu (u : Block) : (s.tookZm u).xu = s.xu := rfl
@[simp] theorem State.tookZm_bus (u : Block) : (s.tookZm u).bus = s.bus := rfl
@[simp] theorem State.tookZm_zm (u : Block) : (s.tookZm u).zm = s.zm := rfl
@[simp] theorem State.tookZm_au (u : Block) : (s.tookZm u).au = s.au := rfl
@[simp] theorem State.tookZm_ic (u : Block) : (s.tookZm u).ic = s.ic := rfl
@[simp] theorem State.tookZm_mau (u : Block) : (s.tookZm u).mau = s.mau := rfl
@[simp] theorem State.tookZm_su (u : Block) : (s.tookZm u).su = s.su := rfl
@[simp] theorem State.tookZm_lp (u : Block) : (s.tookZm u).lp = s.lp := rfl
@[simp] theorem State.tookZm_net (u : Block) : (s.tookZm u).net = s.net.setToZm u (s.net.toZm u).tail := rfl

@[simp] theorem State.deliver_pending (src : Source) (p : Period) : (s.deliver src p).pending = s.pending := rfl
@[simp] theorem State.deliver_xu (src : Source) (p : Period) : (s.deliver src p).xu = s.xu := rfl
@[simp] theorem State.deliver_bus (src : Source) (p : Period) : (s.deliver src p).bus = s.bus := rfl
@[simp] theorem State.deliver_zm (src : Source) (p : Period) : (s.deliver src p).zm = s.zm := rfl
@[simp] theorem State.deliver_au (src : Source) (p : Period) : (s.deliver src p).au = s.au := rfl
@[simp] theorem State.deliver_ic (src : Source) (p : Period) : (s.deliver src p).ic = s.ic := rfl
@[simp] theorem State.deliver_mau (src : Source) (p : Period) : (s.deliver src p).mau = s.mau := rfl
@[simp] theorem State.deliver_su (src : Source) (p : Period) : (s.deliver src p).su = s.su := rfl
@[simp] theorem State.deliver_lp (src : Source) (p : Period) : (s.deliver src p).lp = s.lp := rfl
@[simp] theorem State.deliver_net (src : Source) (p : Period) : (s.deliver src p).net = { s.net with deliveries := s.net.deliveries ++ [(src, p)] } := rfl

@[simp] theorem State.modShow_pending (f : Show → Show) : (s.modShow f).pending = s.pending := rfl
@[simp] theorem State.modShow_xu (f : Show → Show) : (s.modShow f).xu = s.xu := rfl
@[simp] theorem State.modShow_bus (f : Show → Show) : (s.modShow f).bus = s.bus := rfl
@[simp] theorem State.modShow_zm (f : Show → Show) : (s.modShow f).zm = s.zm := rfl
@[simp] theorem State.modShow_au (f : Show → Show) : (s.modShow f).au = s.au := rfl
@[simp] theorem State.modShow_ic (f : Show → Show) : (s.modShow f).ic = s.ic := rfl
@[simp] theorem State.modShow_mau (f : Show → Show) : (s.modShow f).mau = s.mau := rfl
@[simp] theorem State.modShow_su (f : Show → Show) : (s.modShow f).su = { s.su with theShow := f s.su.theShow } := rfl
@[simp] theorem State.modShow_lp (f : Show → Show) : (s.modShow f).lp = s.lp := rfl
@[simp] theorem State.modShow_net (f : Show → Show) : (s.modShow f).net = s.net := rfl

end

end Sys2Proof.Machine
end

