-- ==== Sys2Proof/Laws/Table.lean ====
section
/-! SUPPORT. Laws of tables and zone masks: a read after a write, reads of a built table, membership of a mask. -/

namespace Sys2Proof

variable {n : Nat} {α β : Type}

theorem Table.ext_get {t u : Table n α} (h : ∀ i, t.get i = u.get i) : t = u := by
  obtain ⟨l, hl⟩ := t
  obtain ⟨m, hm⟩ := u
  congr
  apply List.ext_getElem (hl.trans hm.symm)
  intro i h1 h2
  exact h ⟨i, hl ▸ h1⟩

@[simp] theorem Table.get_build (f : Fin n → α) (i : Fin n) : (Table.build f).get i = f i := by
  simp [Table.get, Table.build]

@[simp] theorem Table.get_fill (a : α) (i : Fin n) : (Table.fill n a).get i = a := by
  simp [Table.get, Table.fill]

@[simp] theorem Table.get_set_self (t : Table n α) (i : Fin n) (a : α) : (t.set i a).get i = a := by
  simp [Table.get, Table.set]

theorem Table.get_set (t : Table n α) (i j : Fin n) (a : α) :
    (t.set i a).get j = if j = i then a else t.get j := by
  simp only [Table.get, Table.set, List.getElem_set, Fin.ext_iff, eq_comm]

@[simp] theorem Table.get_set_ne (t : Table n α) {i j : Fin n} (a : α) (h : j ≠ i) :
    (t.set i a).get j = t.get j := by simp [Table.get_set, h]

@[simp] theorem Table.get_modify_self (t : Table n α) (i : Fin n) (f : α → α) :
    (t.modify i f).get i = f (t.get i) := by simp [Table.modify]

theorem Table.get_modify (t : Table n α) (i j : Fin n) (f : α → α) :
    (t.modify i f).get j = if j = i then f (t.get i) else t.get j := by simp [Table.modify, Table.get_set]

@[simp] theorem Table.get_update (t : Table n α) (f : Fin n → α → β) (i : Fin n) :
    (t.update f).get i = f i (t.get i) := by simp [Table.update]

theorem Table.set_get_self (t : Table n α) (i : Fin n) : t.set i (t.get i) = t :=
  Table.ext_get fun j => by
    rw [Table.get_set]
    split
    · subst_vars; rfl
    · rfl

theorem Table.toList_build (f : Fin n → α) : (Table.build f).toList = List.ofFn f := rfl

/-- Membership of a mask built from a predicate. -/
@[simp] theorem inMask_maskOf (p : Fin 64 → Bool) (z : Fin 64) : inMask (maskOf p) z = p z := by
  have hz : z.val < (List.ofFn p).length := by simp
  simp only [inMask, maskOf, BitVec.getLsbD_setWidth, BitVec.getLsbD_ofBoolListLE, z.isLt, decide_true, Bool.true_and]
  rw [List.getD_eq_getElem _ _ hz, List.getElem_ofFn]

@[simp] theorem inMask_zero (z : Fin 64) : inMask 0 z = false := by simp [inMask]

@[simp] theorem inMask_allZones (z : Fin 64) : inMask allZones z = true := by
  rw [inMask, allZones, BitVec.getLsbD_allOnes, decide_eq_true z.isLt]

@[simp] theorem inMask_maskLess (a b : ZoneMask) (z : Fin 64) :
    inMask (maskLess a b) z = (inMask a z && !inMask b z) := by
  simp [inMask, maskLess, z.isLt]

@[simp] theorem inMask_or (a b : ZoneMask) (z : Fin 64) : inMask (a ||| b) z = (inMask a z || inMask b z) := by
  simp [inMask]

/-- Masks with the same members are equal. -/
theorem mask_ext {a b : ZoneMask} (h : ∀ z, inMask a z = inMask b z) : a = b := by
  apply BitVec.eq_of_getLsbD_eq
  intro i hi
  exact h ⟨i, hi⟩

theorem maskOf_inMask (m : ZoneMask) : maskOf (inMask m) = m := mask_ext fun z => by simp

end Sys2Proof
end

