-- ==== Sys2Proof/Laws/Events.lean ====
section
/-! SUPPORT. What the shared operations can do, once each: the end of an event (`publish`), a completion (`handOver`), the scan
pass, a request. -/

namespace Sys2Proof.Machine

/-! ## Frames compose -/

theorem State.sameBlocks.refl (s : State) : s.sameBlocks s := ⟨rfl, rfl, rfl, rfl, rfl, rfl, rfl, rfl⟩

theorem State.sameBlocks.trans {a b c : State} (h : a.sameBlocks b) (k : b.sameBlocks c) : a.sameBlocks c := by
  obtain ⟨h1, h2, h3, h4, h5, h6, h7, h8⟩ := h
  obtain ⟨k1, k2, k3, k4, k5, k6, k7, k8⟩ := k
  exact ⟨k1.trans h1, k2.trans h2, k3.trans h3, k4.trans h4, k5.trans h5, k6.trans h6, k7.trans h7, k8.trans h8⟩

/-! ## Rewrites and postings -/

/-- What beginning a rewrite leaves: page states move, page writes wait. -/
structure Posted (u t : State) : Prop where
  same : u.sameBlocks t
  xu : t.xu = { u.xu with pages := t.xu.pages }
  bus : ∃ q, t.bus = ⟨u.bus.waiting ++ q, u.bus.current⟩ ∧ ∀ x ∈ q, x.job.isPage

theorem Posted.refl (s : State) : Posted s s := ⟨.refl s, rfl, [], by simp, by simp⟩

theorem Posted.trans {a b c : State} (h : Posted a b) (k : Posted b c) : Posted a c := by
  obtain ⟨h1, h2, q, h3, h4⟩ := h
  obtain ⟨k1, k2, r, k3, k4⟩ := k
  refine ⟨h1.trans k1, ?_, q ++ r, ?_, ?_⟩
  · rw [k2, h2]
  · rw [k3, h3]; simp
  · intro x hx
    rcases List.mem_append.mp hx with hx | hx
    · exact h4 x hx
    · exact k4 x hx

theorem posted_beginRewrite (s : State) (p : StatusPage) : Posted s (s.beginRewrite p) := by
  unfold State.beginRewrite
  simp only
  split
  · refine ⟨⟨rfl, rfl, rfl, rfl, rfl, rfl, rfl, rfl⟩, rfl, _, rfl, ?_⟩
    intro x hx
    simp only [pageWrites, writeOf, List.mem_cons, List.not_mem_nil, or_false] at hx
    rcases hx with rfl | rfl | rfl <;> rfl
  · exact .refl s

theorem posted_beginRewrites (s : State) : Posted s s.beginRewrites := by
  unfold State.beginRewrites
  generalize statusPages = l
  induction l generalizing s with
  | nil => exact .refl s
  | cons p l ih => exact (posted_beginRewrite s p).trans (ih _)

theorem postPages_eq (a b : State) (x : Xu) : postPages a b x = { x with pages := (postPages a b x).pages } := by
  unfold postPages
  generalize statusPages = l
  induction l generalizing x with
  | nil => rfl
  | cons p l ih =>
    simp only [List.foldl_cons]
    split
    · rw [ih]; rfl
    · exact ih x

/-- The end of an event adds what `State.settles` says and no more. -/
theorem settles_publish (a b : State) : b.settles (publish a b) := by
  obtain ⟨h1, h2, q, h3, h4⟩ := posted_beginRewrites ((b.raise (noticesRaised a b)).modXu (postPages a b))
  refine ⟨⟨h1.1, h1.2.1, h1.2.2.1, h1.2.2.2.1, h1.2.2.2.2.1, h1.2.2.2.2.2.1, h1.2.2.2.2.2.2.1, h1.2.2.2.2.2.2.2⟩,
    ?_, ?_, q, h3, h4⟩
  · unfold publish
    rw [h2, State.modXu_xu, postPages_eq]
    simp
  · unfold publish
    rw [h2, State.modXu_xu, postPages_eq]
    exact ⟨linkNoticed a b, alarmNoticed a b, rfl⟩

theorem settle_settles (a b : State) : ∃ t, settle a b = .next t ∧ b.settles t :=
  ⟨_, rfl, settles_publish a b⟩

/-- A due event. -/
theorem event_settles {due : Bool} {s u : State} {f : State → State} (h : due = true) (hf : f s = u) :
    ∃ t, event due s f = .next t ∧ u.settles t := by
  subst h hf
  exact settle_settles s (f s)

/-- An event that is not due changes nothing. -/
theorem event_not_due {s : State} {f : State → State} : event false s f = .next s := rfl

section
variable {u t : State} (h : u.settles t)
include h

theorem State.settles.pending : t.pending = u.pending := h.1.1
theorem State.settles.zm : t.zm = u.zm := h.1.2.1
theorem State.settles.au : t.au = u.au := h.1.2.2.1
theorem State.settles.ic : t.ic = u.ic := h.1.2.2.2.1
theorem State.settles.mau : t.mau = u.mau := h.1.2.2.2.2.1
theorem State.settles.su : t.su = u.su := h.1.2.2.2.2.2.1
theorem State.settles.lp : t.lp = u.lp := h.1.2.2.2.2.2.2.1
theorem State.settles.net : t.net = u.net := h.1.2.2.2.2.2.2.2
theorem State.settles.current : t.bus.current = u.bus.current := by
  obtain ⟨q, hq, -⟩ := h.2.2.2
  rw [hq]

end

/-! ## The pass -/

/-- What the pass going on leaves: only where it stands, and reads of it. -/
structure PassedOn (u t : State) : Prop where
  same : u.sameBlocks t
  xu : t.xu = { u.xu with pass := t.xu.pass, passPending := t.xu.passPending }
  bus : t.bus = ⟨u.bus.waiting ++ (t.xu.pass.map u.xu.visit).toList, u.bus.current⟩

theorem passedOn_readSlot (s : State) (k : SlotIx) : PassedOn s (s.readSlot k) :=
  ⟨⟨rfl, rfl, rfl, rfl, rfl, rfl, rfl, rfl⟩, rfl, rfl⟩

theorem passedOn_beginPass (s : State) : PassedOn s s.beginPass := by
  unfold State.beginPass
  split
  · exact passedOn_readSlot s _
  · exact ⟨⟨rfl, rfl, rfl, rfl, rfl, rfl, rfl, rfl⟩, rfl, by simp⟩

theorem passedOn_passOn (s : State) (k : SlotIx) : PassedOn s (s.passOn k) := by
  unfold State.passOn
  split
  · exact passedOn_readSlot s _
  · split
    · obtain ⟨h1, h2, h3⟩ := passedOn_beginPass (s.modXu fun x => { x with passPending := false })
      exact ⟨⟨h1.1, h1.2.1, h1.2.2.1, h1.2.2.2.1, h1.2.2.2.2.1, h1.2.2.2.2.2.1, h1.2.2.2.2.2.2.1,
        h1.2.2.2.2.2.2.2⟩, by rw [h2]; rfl, h3⟩
    · exact ⟨⟨rfl, rfl, rfl, rfl, rfl, rfl, rfl, rfl⟩, rfl, by simp⟩

/-- The first FREE slot at or after `i` is unique. -/
theorem nextFree_eq_some {x : Xu} {i : Nat} {j : SlotIx} (hi : i ≤ j.val) (hj : x.shadows.get j = .free)
    (hf : ∀ k : SlotIx, i ≤ k.val → k < j → x.shadows.get k ≠ .free) : x.nextFree i = some j := by
  have hj' : (decide (i ≤ j.val) && decide (x.shadows.get j = .free)) = true := by simp [hi, hj]
  cases h : x.nextFree i with
  | none => exact absurd hj' (List.find?_eq_none.mp h j (List.mem_finRange j))
  | some k =>
    have hk := List.find?_some h
    simp only [Bool.and_eq_true, decide_eq_true_eq] at hk
    rcases lt_trichotomy k j with hlt | rfl | hgt
    · exact absurd hk.2 (hf k hk.1 hlt)
    · rfl
    · obtain ⟨-, as, bs, he, hn⟩ := List.find?_eq_some_iff_append.mp h
      have hs : (as ++ k :: bs).Pairwise (· < ·) := he ▸ List.pairwise_lt_finRange 64
      have hm : j ∈ as ++ k :: bs := he ▸ List.mem_finRange j
      rcases List.mem_append.mp hm with hm | hm
      · have := hn j hm
        simp [hi, hj] at this
      · rcases List.mem_cons.mp hm with rfl | hm
        · rfl
        · exact absurd ((List.pairwise_cons.mp (List.pairwise_append.mp hs).2.1).1 j hm) (lt_asymm hgt)

theorem nextFree_eq_none {x : Xu} {i : Nat} (h : ∀ j : SlotIx, i ≤ j.val → x.shadows.get j ≠ .free) :
    x.nextFree i = none := by
  refine List.find?_eq_none.mpr fun j _ => ?_
  simp only [Bool.and_eq_true, decide_eq_true_eq, not_and]
  exact h j

/-- Where a pass goes on to (R213). -/
theorem goesOn_passOn (s : State) (k : SlotIx) :
    s.xu.goesOn k (s.passOn k).xu.pass (s.passOn k).xu.passPending := by
  refine ⟨fun j hk hj hf => ?_, fun hn => ?_⟩
  · have h : s.xu.nextFree (k.val + 1) = some j := nextFree_eq_some hk hj fun i h1 h2 => hf i h1 h2
    simp [State.passOn, h, State.readSlot]
  · have h : s.xu.nextFree (k.val + 1) = none := nextFree_eq_none fun j hj => hn j hj
    cases hp : s.xu.passPending with
    | false => simp [State.passOn, h, hp]
    | true =>
      have e : s.passOn k = (s.modXu fun x => { x with passPending := false }).beginPass := by
        simp [State.passOn, h, hp]
      rw [e]
      generalize hv : (s.modXu fun x => { x with passPending := false }) = v
      have hw : v.xu.passPending = false := by rw [← hv]; rfl
      have hs : v.xu.shadows = s.xu.shadows := by rw [← hv]; rfl
      refine ⟨?_, by simp, fun _ => ⟨fun j hj hf => ?_, fun hf => ?_⟩⟩
      · unfold State.beginPass
        split <;> simp [State.readSlot, hw]
      · have h : v.xu.nextFree 0 = some j :=
          nextFree_eq_some (Nat.zero_le _) (hs ▸ hj) fun i _ hi => hs ▸ hf i hi
        simp [State.beginPass, h, State.readSlot]
      · have h : v.xu.nextFree 0 = none := nextFree_eq_none fun j _ => hs ▸ hf j
        simp [State.beginPass, h]

/-! ## Completions and requests -/

theorem handOver_eq (s : State) (slot : SlotIx) (c : Completion) : s.handOver slot c = s.completed slot c := by
  by_cases h : s.xu.attach = .attached <;>
    simp [State.handOver, State.completed, h, State.modXu, State.issue, State.modBus, countUp, satAdd, Config.maxCount]

/-- What ending a dispatch leaves. -/
theorem dealtWith_cases (u : State) (slot : SlotIx) :
    (u.xu.pass = some slot ∧ PassedOn (u.modXu fun x => { x with dispatch := none }) (u.dealtWith slot)
        ∧ u.xu.goesOn slot (u.dealtWith slot).xu.pass (u.dealtWith slot).xu.passPending)
      ∨ (u.xu.pass ≠ some slot ∧ u.dealtWith slot = u.modXu fun x => { x with dispatch := none }) := by
  by_cases hp : u.xu.pass = some slot
  · left
    refine ⟨hp, ?_⟩
    unfold State.dealtWith
    rw [if_pos hp]
    exact ⟨passedOn_passOn _ slot, goesOn_passOn (u.modXu fun x => { x with dispatch := none }) slot⟩
  · right
    refine ⟨hp, ?_⟩
    unfold State.dealtWith
    rw [if_neg hp]

/-- A request its unit keeps. -/
theorem takes_of (s u : State) (slot : SlotIx) : u.takes (publish s (u.dealtWith slot)) slot := by
  obtain ⟨h1, h2, h3, q, h4, h5⟩ := settles_publish s (u.dealtWith slot)
  generalize publish s (u.dealtWith slot) = t at *
  rcases dealtWith_cases u slot with ⟨hp, ⟨k1, k2, k3⟩, k4⟩ | ⟨hp, he⟩
  · generalize u.dealtWith slot = v at *
    have hv : t.xu.pass = v.xu.pass ∧ t.xu.passPending = v.xu.passPending := by rw [h2]; exact ⟨rfl, rfl⟩
    refine ⟨?_, ?_, ?_, fun h => absurd hp h, fun _ => ?_, q, ?_, h5⟩
    · exact (State.sameBlocks.trans ⟨rfl, rfl, rfl, rfl, rfl, rfl, rfl, rfl⟩ k1).trans h1
    · rw [h2, k2]; rfl
    · rw [k2] at h3; exact h3
    · rw [hv.1, hv.2]; exact k4
    · rw [h4, k3, if_pos hp, hv.1]; rfl
  · rw [he] at h1 h2 h3 h4
    refine ⟨h1, ?_, h3, fun _ => ?_, fun h => absurd h hp, q, ?_, h5⟩
    · rw [h2]; rfl
    · rw [h2]; exact ⟨rfl, rfl⟩
    · rw [h4, if_neg hp]; simp

/-- A dispatched request whose unit is free. -/
theorem request_takes {slot : SlotIx} {r : Request} {free : Bool} {s u : State} {f : State → State}
    (hd : s.xu.dispatch = some (slot, r)) (hf : free = true) (hu : f s = u) :
    ∃ t, request slot r free s f = .next t ∧ u.takes t slot := by
  subst hf hu
  refine ⟨_, ?_, takes_of s (f s) slot⟩
  simp [request, event, State.dispatches, hd, settle]

/-- The same, answered at once. -/
theorem request_answers {slot : SlotIx} {r : Request} {free : Bool} {s u : State} {f : State → State} {c : Completion}
    (hd : s.xu.dispatch = some (slot, r)) (hf : free = true) (hu : f s = u.handOver slot c) :
    ∃ t, request slot r free s f = .next t ∧ u.answers t slot c := by
  rw [handOver_eq] at hu
  exact request_takes hd hf hu

end Sys2Proof.Machine
end

