-- ==== Sys2Proof/Laws/Values.lean ====
section
/-! SUPPORT. Laws of the small operations on values: selectors, clamps, counts, first members of a list, and a fold that visits
every entry of a table once. -/

namespace Sys2Proof

variable {n : Nat} {α β : Type}

@[simp] theorem Table.set_set (t : Table n α) (i : Fin n) (a b : α) : (t.set i a).set i b = t.set i b :=
  Table.ext_get fun j => by simp only [Table.get_set]; split <;> rfl

theorem Table.set_comm (t : Table n α) {i j : Fin n} (a b : α) (h : i ≠ j) :
    (t.set i a).set j b = (t.set j b).set i a :=
  Table.ext_get fun k => by
    simp only [Table.get_set]
    by_cases h1 : k = i <;> by_cases h2 : k = j <;> simp_all

theorem Table.modify_eq (t : Table n α) (i : Fin n) (f : α → α) : t.modify i f = t.set i (f (t.get i)) := rfl

theorem Table.update_eq_self (t : Table n α) (f : Fin n → α → α) (h : ∀ i, f i (t.get i) = t.get i) : t.update f = t :=
  Table.ext_get fun i => by simp [h]

/-- The first entry that satisfies `p`. -/
theorem find_fin {p : Fin n → Bool} {q : Fin n} (hq : p q = true) (h : ∀ i < q, p i = false) :
    (List.finRange n).find? p = some q := by
  rw [List.find?_eq_some_iff_getElem]
  refine ⟨hq, q.val, by simp, by simp, ?_⟩
  intro j hj
  have := h ⟨j, by omega⟩ (by simpa [Fin.lt_def] using hj)
  simpa using this

/-- The first element that satisfies `p`, and the list without it. -/
theorem find_first {p : α → Bool} {l b a : List α} {e : α} (h : l = b ++ e :: a) (he : p e = true)
    (hb : ∀ x ∈ b, p x = false) : l.find? p = some e ∧ l.eraseP p = b ++ a := by
  subst h
  constructor
  · rw [List.find?_append, List.find?_eq_none.mpr (by intro x hx; simp [hb x hx])]
    simp [he]
  · rw [List.eraseP_append_right _ (by intro x hx; simp [hb x hx])]
    simp [he]

/-- A fold over all numbers below `n` whose step `i` changes entry `i` alone: afterwards every entry `j` is `g j` of what it
was, and what the steps keep (`P`) is kept. -/
theorem foldl_entries {σ : Type} (f : σ → Fin n → σ) (get : σ → Fin n → α) (g : Fin n → α → α) (P : σ → Prop)
    (keep : ∀ s i, P s → P (f s i)) (self : ∀ s i, P s → get (f s i) i = g i (get s i))
    (other : ∀ s i j, P s → j ≠ i → get (f s i) j = get s j) (s : σ) (h : P s) :
    P ((List.finRange n).foldl f s) ∧ ∀ j, get ((List.finRange n).foldl f s) j = g j (get s j) := by
  have key : ∀ (l : List (Fin n)) (s : σ), l.Nodup → P s →
      P (l.foldl f s) ∧ ∀ j, get (l.foldl f s) j = if j ∈ l then g j (get s j) else get s j := by
    intro l
    induction l with
    | nil => intro s _ hs; exact ⟨hs, fun j => by simp⟩
    | cons i l ih =>
      intro s hl hs
      obtain ⟨hi, hl⟩ := List.nodup_cons.mp hl
      obtain ⟨h1, h2⟩ := ih (f s i) hl (keep s i hs)
      refine ⟨h1, fun j => ?_⟩
      rw [List.foldl_cons, h2 j]
      by_cases hj : j = i
      · subst hj
        simp [hi, self s j hs]
      · simp [hj, other s i j hs hj]
  obtain ⟨h1, h2⟩ := key (List.finRange n) s (List.nodup_finRange n) h
  exact ⟨h1, fun j => by rw [h2 j]; simp⟩

/-- What a fold keeps at each step it keeps. -/
theorem foldl_keeps {σ ι : Type} (f : σ → ι → σ) (P : σ → Prop) (keep : ∀ s i, P s → P (f s i)) (l : List ι) (s : σ)
    (h : P s) : P (l.foldl f s) := by
  induction l generalizing s with
  | nil => exact h
  | cons i l ih => exact ih _ (keep s i h)

namespace Machine

theorem clamp_eq (lo hi v : Nat) (h : lo ≤ hi) : clamp lo hi v = max lo (min hi v) := by
  unfold clamp
  split
  · omega
  · split <;> omega

theorem clampGain_eq (v : Nat) : clampGain v = min 32768 v := Nat.min_comm _ _

theorem clampSlew_eq (v : Nat) : clampSlew v = max 1 (min 32768 v) := clamp_eq _ _ _ (by decide)

theorem clampThreshold_eq (v : Nat) : clampThreshold v = max 1 (min 3 v) := clamp_eq _ _ _ (by decide)

theorem countUp_eq (v : Nat) : countUp v = min 65535 (v + 1) := rfl

theorem clampGain_le (v : Nat) : clampGain v ≤ 32768 := Nat.min_le_right _ _

theorem gainProduct_le {a b : Nat} (ha : a ≤ 32768) (hb : b ≤ 32768) : gainProduct a b ≤ 32768 := by
  unfold gainProduct
  have : a * b ≤ 32768 * 32768 := Nat.mul_le_mul ha hb
  omega

end Machine

end Sys2Proof
end

