-- ==== Sys2Proof/Laws/Channels.lean ====
section
/-! SUPPORT. What the operations on one stream channel can do: each touches that channel's record, what SU has sent ZM, and
the transfers waiting, and nothing else. -/

namespace Sys2Proof.Machine

/-- `t` is `s` but for the record of channel `c`, messages and periods SU sent ZM, and transfers waiting. -/
structure TouchesChannel (c : Stream) (s t : State) : Prop where
  pending : t.pending = s.pending
  xu : t.xu = s.xu
  zm : t.zm = s.zm
  au : t.au = s.au
  ic : t.ic = s.ic
  mau : t.mau = s.mau
  lp : t.lp = s.lp
  su : t.su = { s.su with channels := s.su.channels.set c (t.chan c) }
  net : ∃ m d, t.net = { s.net with suToZm := s.net.suToZm ++ m, deliveries := s.net.deliveries ++ d }
  bus : ∃ q, t.bus = ⟨s.bus.waiting ++ q, s.bus.current⟩

theorem TouchesChannel.refl (c : Stream) (s : State) : TouchesChannel c s s where
  pending := rfl
  xu := rfl
  zm := rfl
  au := rfl
  ic := rfl
  mau := rfl
  lp := rfl
  su := by rw [State.chan, Table.set_get_self]
  net := ⟨[], [], by simp⟩
  bus := ⟨[], by simp⟩

theorem TouchesChannel.other {c d : Stream} {s t : State} (h : TouchesChannel c s t) (hd : d ≠ c) :
    t.chan d = s.chan d := by
  rw [State.chan, h.su]
  simp [State.chan, hd]

theorem TouchesChannel.trans {c : Stream} {s t u : State} (h : TouchesChannel c s t) (k : TouchesChannel c t u) :
    TouchesChannel c s u where
  pending := k.pending.trans h.pending
  xu := k.xu.trans h.xu
  zm := k.zm.trans h.zm
  au := k.au.trans h.au
  ic := k.ic.trans h.ic
  mau := k.mau.trans h.mau
  lp := k.lp.trans h.lp
  su := by
    rw [k.su, h.su]
    simp
  net := by
    obtain ⟨m, d, h1⟩ := h.net
    obtain ⟨m', d', k1⟩ := k.net
    exact ⟨m ++ m', d ++ d', by rw [k1, h1]; simp⟩
  bus := by
    obtain ⟨q, h1⟩ := h.bus
    obtain ⟨r, k1⟩ := k.bus
    exact ⟨q ++ r, by rw [k1, h1]; simp⟩

/-! ## The operations -/

/-- The message by which ZM learns of a channel's change into or out of RUNNING. -/
def runningPost (c : Stream) (old new : StreamState) : List ZmMsg :=
  if decide (old = .running) = decide (new = .running) then [] else [.streamRunning c (decide (new = .running))]

theorem State.setChan_eq (s : State) (c : Stream) (r : Chan) :
    s.setChan c r =
      { s with
        su := { s.su with channels := s.su.channels.set c r }
        net := { s.net with suToZm := s.net.suToZm ++ runningPost c (s.chan c).state r.state } } := by
  unfold State.setChan runningPost
  simp only
  split
  · simp [State.modSu]
  · rfl

@[simp] theorem State.setChan_chan (s : State) (c : Stream) (r : Chan) : (s.setChan c r).chan c = r := by
  rw [State.setChan_eq]
  simp [State.chan]

theorem State.setChan_chan_ne (s : State) {c d : Stream} (r : Chan) (h : d ≠ c) : (s.setChan c r).chan d = s.chan d := by
  rw [State.setChan_eq]
  simp [State.chan, h]

theorem touches_setChan (s : State) (c : Stream) (r : Chan) : TouchesChannel c s (s.setChan c r) := by
  rw [State.setChan_eq]
  exact ⟨rfl, rfl, rfl, rfl, rfl, rfl, rfl, by simp [State.chan], ⟨_, [], by simp; rfl⟩, ⟨[], by simp⟩⟩

theorem touches_issue (s : State) (c : Stream) (ts : List Transfer) : TouchesChannel c s (s.issue ts) :=
  ⟨rfl, rfl, rfl, rfl, rfl, rfl, rfl, by simp only [State.chan, State.issue, State.modBus, Table.set_get_self],
    ⟨[], [], by simp [State.issue, State.modBus]⟩, ⟨ts, rfl⟩⟩

theorem touches_deliver (s : State) (c : Stream) (src : Source) (p : Period) : TouchesChannel c s (s.deliver src p) :=
  ⟨rfl, rfl, rfl, rfl, rfl, rfl, rfl, by simp only [State.chan, State.deliver, State.modNet, Table.set_get_self],
    ⟨[], _, by simp [State.deliver, State.modNet]; rfl⟩, ⟨[], by simp [State.deliver, State.modNet]⟩⟩

@[simp] theorem State.issue_chan (s : State) (ts : List Transfer) (c : Stream) : (s.issue ts).chan c = s.chan c := rfl

@[simp] theorem State.deliver_chan (s : State) (src : Source) (p : Period) (c : Stream) :
    (s.deliver src p).chan c = s.chan c := rfl

theorem touches_writeDescriptor (s : State) (c : Stream) (i : Nat) (v : Byte) :
    TouchesChannel c s (s.writeDescriptor c i v) := by
  unfold State.writeDescriptor
  split
  · exact touches_issue s c _
  · exact .refl c s

@[simp] theorem State.writeDescriptor_chan (s : State) (c d : Stream) (i : Nat) (v : Byte) :
    (s.writeDescriptor c i v).chan d = s.chan d := by
  unfold State.writeDescriptor
  split <;> rfl

theorem touches_probe (s : State) (c : Stream) (i : Nat) : TouchesChannel c s (s.probe c i) := by
  unfold State.probe
  split
  · exact (touches_setChan s c _).trans (touches_issue _ c _)
  · exact .refl c s

/-- A probe marks the channel, where it has a ring. -/
theorem State.probe_chan (s : State) (c : Stream) (i : Nat) :
    (s.probe c i).chan c =
      { s.chan c with probe := if (s.chan c).ring = none then (s.chan c).probe else some i } := by
  unfold State.probe
  split <;> rename_i h
  · simp [h]
  · rw [if_pos h]

theorem touches_topUp (s : State) (c : Stream) : TouchesChannel c s (s.topUp c) := by
  unfold State.topUp
  exact (touches_setChan s c _).trans (touches_issue _ c _)

/-- Topping up adds a mark for each period of the window that bears none. -/
theorem State.topUp_chan (s : State) (c : Stream) :
    (s.topUp c).chan c =
      { s.chan c with
        marks :=
          (s.chan c).marks
            ++ ((s.chan c).window.filter fun b => !(s.chan c).marked b).map fun b => ⟨b.index, b.period, none⟩ } := by
  simp [State.topUp]

/-- After topping up every period of the window is requested. -/
theorem State.topUp_window (s : State) (c : Stream) (x : BlockPeriod) (hx : x ∈ ((s.topUp c).chan c).window) :
    ((s.topUp c).chan c).marked x = true := by
  rw [State.topUp_chan] at hx ⊢
  have hw : x ∈ (s.chan c).window := hx
  by_cases h : (s.chan c).marked x = true
  · simp only [Chan.marked, List.any_append, Bool.or_eq_true]
    exact .inl h
  · simp only [Chan.marked, List.any_append, Bool.or_eq_true]
    right
    rw [List.any_eq_true]
    exact ⟨⟨x.index, x.period, none⟩,
      List.mem_map.mpr ⟨x, List.mem_filter.mpr ⟨hw, by rw [Bool.not_eq_true] at h; exact congrArg (!·) h⟩, rfl⟩,
      by simp⟩

theorem touches_stopChannel (s : State) (c : Stream) : TouchesChannel c s (s.stopChannel c) := by
  unfold State.stopChannel
  simp only
  split
  · exact (touches_writeDescriptor s c _ _).trans (touches_setChan _ c _)
  · exact touches_setChan s c _

/-- A channel that stops plays nothing, its cursor after its playing block (R163). -/
theorem State.stopChannel_chan (s : State) (c : Stream) :
    (s.stopChannel c).chan c =
      { (s.chan c).bare with
        state := .stopped
        cursor :=
          match (s.chan c).playing with
          | some p => (s.chan c).after p.index
          | none => (s.chan c).cursor } := by
  cases h : (s.chan c).playing with
  | none => simp only [State.stopChannel, h, State.setChan_chan]; rfl
  | some p => simp only [State.stopChannel, h, State.setChan_chan]

theorem touches_stopWithFade (s : State) (c : Stream) (n : Nat) : TouchesChannel c s (s.stopWithFade c n) := by
  unfold State.stopWithFade
  simp only
  split
  · exact (touches_setChan s c _).trans (touches_stopChannel _ c)
  · exact touches_setChan s c _

theorem touches_blockEnded (s : State) (c : Stream) (p : Playing) : TouchesChannel c s (s.blockEnded c p) := by
  unfold State.blockEnded
  simp only
  split
  · exact (touches_writeDescriptor s c _ _).trans (touches_setChan _ c _)
  · split
    · exact ((touches_writeDescriptor s c _ _).trans (touches_setChan _ c _)).trans (touches_writeDescriptor _ c _ _)
    · exact (touches_writeDescriptor s c _ _).trans (touches_setChan _ c _)

/-- What the block end leaves of the channel (R158). -/
theorem State.blockEnded_chan (s : State) (c : Stream) (p : Playing) :
    (s.blockEnded c p).chan c =
      let r := s.chan c
      if p.last then { r.bare with state := .stopped }
      else
        match r.next with
        | some n =>
          { r with
            cursor := r.after r.cursor, playing := some ⟨n.index, n.addr, n.len, n.last, 0, false⟩, next := none
            marks := r.marks.filter fun m => decide (m.index = n.index) }
        | none => { r with cursor := r.after r.cursor, playing := none, marks := [], state := .starved } := by
  unfold State.blockEnded
  simp only [State.writeDescriptor_chan]
  split
  · rw [State.setChan_chan]
  · cases h : (s.chan c).next <;> simp

theorem touches_sendSu (s : State) (c : Stream) (m : ZmMsg) : TouchesChannel c s (s.sendZm .su m) :=
  ⟨rfl, rfl, rfl, rfl, rfl, rfl, rfl,
    by simp only [State.chan, State.sendZm, State.modNet, Table.set_get_self],
    ⟨[m], [], by simp [State.sendZm, State.modNet, Net.setToZm, Net.toZm]⟩,
    ⟨[], by simp [State.sendZm, State.modNet]⟩⟩

theorem touches_faultChannel (s : State) (c : Stream) : TouchesChannel c s (s.faultChannel c) := by
  unfold State.faultChannel
  simp only
  split
  · exact .refl c s
  · split
    · exact (touches_setChan s c _).trans (touches_sendSu _ c _)
    · exact touches_setChan s c _

theorem touches_fadePeriod (s : State) (c : Stream) : TouchesChannel c s (s.fadePeriod c).1 := by
  unfold State.fadePeriod
  simp only
  split
  · split
    · exact (touches_setChan s c _).trans (touches_stopChannel _ c)
    · exact touches_setChan s c _
  · exact touches_setChan s c _

theorem touches_disposePeriod (s : State) (c : Stream) (p : Playing) : TouchesChannel c s (s.disposePeriod c p) := by
  unfold State.disposePeriod
  simp only
  have h : TouchesChannel c s (match (s.chan c).samplesOf p.index p.period with
      | some x => s.deliver (.stream c) (scaled x (s.chan c).fader.current)
      | none => s) := by
    split
    · exact touches_deliver s c _ _
    · exact .refl c s
  split
  · exact (h.trans (touches_setChan _ c _)).trans (touches_blockEnded _ c _)
  · exact h.trans (touches_setChan _ c _)

theorem touches_blockPeriodStart (s : State) (c : Stream) : TouchesChannel c s (s.blockPeriodStart c) := by
  unfold State.blockPeriodStart
  simp only
  split
  · split
    · exact touches_setChan s c _
    · exact .refl c s
  · split
    · exact touches_setChan s c _
    · exact touches_disposePeriod s c _

theorem touches_lookAhead (s : State) (c : Stream) : TouchesChannel c s (s.lookAhead c) := by
  unfold State.lookAhead
  have h : TouchesChannel c s (if (s.chan c).probeDue = true then s.probe c (s.chan c).wanted else s) := by
    split
    · exact touches_probe s c _
    · exact .refl c s
  generalize (if (s.chan c).probeDue = true then s.probe c (s.chan c).wanted else s) = t at *
  dsimp only
  split
  · exact h.trans (touches_topUp _ c)
  · exact h

theorem touches_channelPeriod (s : State) (c : Stream) : TouchesChannel c s (s.channelPeriod c) := by
  unfold State.channelPeriod
  split
  · exact .refl c s
  · exact touches_fadePeriod s c
  · exact touches_fadePeriod s c
  all_goals
    simp only
    split
    · exact touches_fadePeriod s c
    · exact ((touches_fadePeriod s c).trans (touches_blockPeriodStart _ c)).trans (touches_lookAhead _ c)

theorem touches_tearDownChannel (s : State) (c : Stream) : TouchesChannel c s (s.tearDownChannel c) := by
  unfold State.tearDownChannel
  simp only
  have h : TouchesChannel c s (s.resumeChannel c) := touches_setChan s c _
  split
  · exact h.trans (touches_stopWithFade _ c 0)
  · exact h.trans (touches_stopWithFade _ c 0)
  · exact h.trans (touches_setChan _ c _)
  · exact h.trans (touches_setChan _ c _)
  · exact h.trans (touches_setChan _ c _)

/-! ## Every channel in turn -/

/-- What a step for each channel leaves, when each touches its own channel: the rest of the part as it was. -/
structure TouchesChannels (s t : State) : Prop where
  pending : t.pending = s.pending
  xu : t.xu = s.xu
  zm : t.zm = s.zm
  au : t.au = s.au
  ic : t.ic = s.ic
  mau : t.mau = s.mau
  lp : t.lp = s.lp
  show_ : t.su.theShow = s.su.theShow
  load : t.su.load = s.su.load
  net : ∃ m d, t.net = { s.net with suToZm := s.net.suToZm ++ m, deliveries := s.net.deliveries ++ d }
  bus : ∃ q, t.bus = ⟨s.bus.waiting ++ q, s.bus.current⟩

theorem TouchesChannels.refl (s : State) : TouchesChannels s s :=
  ⟨rfl, rfl, rfl, rfl, rfl, rfl, rfl, rfl, rfl, ⟨[], [], by simp⟩, ⟨[], by simp⟩⟩

theorem TouchesChannels.step {c : Stream} {s t u : State} (h : TouchesChannels s t) (k : TouchesChannel c t u) :
    TouchesChannels s u where
  pending := k.pending.trans h.pending
  xu := k.xu.trans h.xu
  zm := k.zm.trans h.zm
  au := k.au.trans h.au
  ic := k.ic.trans h.ic
  mau := k.mau.trans h.mau
  lp := k.lp.trans h.lp
  show_ := by rw [k.su]; exact h.show_
  load := by rw [k.su]; exact h.load
  net := by
    obtain ⟨m, d, h1⟩ := h.net
    obtain ⟨m', d', k1⟩ := k.net
    exact ⟨m ++ m', d ++ d', by rw [k1, h1]; simp⟩
  bus := by
    obtain ⟨q, h1⟩ := h.bus
    obtain ⟨r, k1⟩ := k.bus
    exact ⟨q ++ r, by rw [k1, h1]; simp⟩

/-- A step that touches each channel in turn, its effect on a channel resting on that channel's record alone, gives every
channel that effect. -/
theorem each_channel (f : State → Stream → State) (g : Stream → Chan → Chan) (s : State)
    (ht : ∀ t c, TouchesChannel c t (f t c)) (hg : ∀ t c, (f t c).chan c = g c (t.chan c)) :
    TouchesChannels s ((List.finRange 16).foldl f s) ∧ ∀ c, ((List.finRange 16).foldl f s).chan c = g c (s.chan c) :=
  foldl_entries f State.chan g (TouchesChannels s) (fun _ c h => h.step (ht _ c)) (fun t c _ => hg t c)
    (fun t c _ _ hd => (ht t c).other hd) s (.refl s)

/-- The same for a step that writes the channel's record and nothing more: what each becomes, and what ZM is sent. -/
theorem foldl_setChan (g : Chan → Chan) (s : State) :
    (List.finRange 16).foldl (fun s c => s.setChan c (g (s.chan c))) s =
      { s with
        su := { s.su with channels := s.su.channels.update fun _ r => g r }
        net :=
          { s.net with
            suToZm :=
              s.net.suToZm
                ++ (List.finRange 16).flatMap fun c => runningPost c (s.chan c).state (g (s.chan c)).state } } := by
  have key : ∀ (l : List Stream) (s : State), l.Nodup →
      l.foldl (fun s c => s.setChan c (g (s.chan c))) s =
        { s with
          su := { s.su with channels := s.su.channels.update fun c r => if c ∈ l then g r else r }
          net :=
            { s.net with
              suToZm :=
                s.net.suToZm ++ l.flatMap fun c => runningPost c (s.chan c).state (g (s.chan c)).state } } := by
    intro l
    induction l with
    | nil => intro s _; simp [Table.update_eq_self]
    | cons i l ih =>
      intro s hl
      obtain ⟨hi, hl⟩ := List.nodup_cons.mp hl
      have h1 : ((s.su.channels.set i (g (s.su.channels.get i))).update fun c r => if c ∈ l then g r else r)
          = s.su.channels.update fun c r => if c ∈ i :: l then g r else r := by
        apply Table.ext_get
        intro j
        by_cases h : j = i
        · subst h
          simp only [Table.get_update, Table.get_set_self, if_neg hi, List.mem_cons, true_or, if_true]
        · simp [h]
      have h2 : (l.flatMap fun c => runningPost c ((s.su.channels.set i (g (s.su.channels.get i))).get c).state
          (g ((s.su.channels.set i (g (s.su.channels.get i))).get c)).state)
          = l.flatMap fun c => runningPost c (s.su.channels.get c).state (g (s.su.channels.get c)).state := by
        apply List.flatMap_congr
        intro c hc
        have : c ≠ i := fun e => hi (e ▸ hc)
        simp [this]
      rw [List.foldl_cons, ih _ hl, State.setChan_eq]
      simp only [State.chan, List.flatMap_cons, List.append_assoc, h1, h2]
  rw [key _ _ (List.nodup_finRange 16)]
  simp

end Sys2Proof.Machine
end

