-- ==== Sys2Proof/WellFormed.lean ====
section
/-! DEFINITION. Which terms of `Instr` name a step the part has.

The operand types carry most of it: numbers of things are `Fin`, fields are as wide as their layout. What a type
does not carry is which unit may make a claim, receive an answer or take a job reset, and that the order of
expiries an IS period start is given names no station twice. An ill-formed step finds nothing to take. -/

namespace Sys2Proof

/-- The units that claim zones of ZM and are answered (R7, R8). -/
def Block.claims : Block → Bool
  | .au | .is | .mau => true
  | _ => false

/-- The units that take a job reset on leaving SERVICE (R201). -/
def Block.takesJobReset : Block → Bool
  | .au | .is | .su | .zm => true
  | _ => false

/-- Whether a command names a step of the part. -/
def Instr.wellFormed : Instr → Bool
  | .claimRequest u | .releaseRequest u | .claimAnswer u => u.claims
  | .jobReset u => u.takesJobReset
  | .isPeriodStart first => decide first.Nodup
  | .undefinedStationEvent _ code => code = 0 || 8 ≤ code.toNat
  | _ => true

end Sys2Proof
end

