-- ==== Sys2Proof/Laws/PerInstr.lean ====
section
/-! SUPPORT. Well-formedness, constructor by constructor: a command is ill-formed for one of four causes only, and each is an
operand out of place. -/

namespace Sys2Proof.Laws

/-- A command that names no step of the part is a claim, a release or an answer of a unit that does not claim, a job
reset of a unit that takes none, a period start of IS that names a station twice, or an undefined station event of
a code that is defined. -/
def Formed.Statement (i : Instr) : Prop :=
  i.wellFormed = false →
    (∃ u : Block, u.claims = false ∧ (i = .claimRequest u ∨ i = .releaseRequest u ∨ i = .claimAnswer u))
    ∨ (∃ u : Block, u.takesJobReset = false ∧ i = .jobReset u)
    ∨ (∃ first : List Station, ¬first.Nodup ∧ i = .isPeriodStart first)
    ∨ ∃ (st : Station) (code : BitVec 4), code ≠ 0 ∧ code.toNat < 8 ∧ i = .undefinedStationEvent st code

/-- A command with no check on its operands is well formed. -/
theorem formed_of_wellFormed {i : Instr} (h : i.wellFormed = true) : Formed.Statement i := fun k => by simp [h] at k

theorem Formed.powerOnReset : Formed.Statement .powerOnReset := formed_of_wellFormed rfl
theorem Formed.hardwareReset : Formed.Statement .hardwareReset := formed_of_wellFormed rfl
theorem Formed.softwareReset : Formed.Statement .softwareReset := formed_of_wellFormed rfl
theorem Formed.attach : Formed.Statement .attach := formed_of_wellFormed rfl
theorem Formed.detach : Formed.Statement .detach := formed_of_wellFormed rfl
theorem Formed.scan : Formed.Statement .scan := formed_of_wellFormed rfl
theorem Formed.noticeRead : Formed.Statement .noticeRead := formed_of_wellFormed rfl
theorem Formed.noticeEnableWrite (v : BitVec 32) : Formed.Statement (.noticeEnableWrite v) := formed_of_wellFormed rfl
theorem Formed.registerWrite (r : Register) (v : BitVec 32) :
    Formed.Statement (.registerWrite r v) := formed_of_wellFormed rfl
theorem Formed.headerReadComplete (r : BusRead 256) :
    Formed.Statement (.headerReadComplete r) := formed_of_wellFormed rfl
theorem Formed.scanIntervalExpiry : Formed.Statement .scanIntervalExpiry := formed_of_wellFormed rfl
theorem Formed.meterIntervalExpiry : Formed.Statement .meterIntervalExpiry := formed_of_wellFormed rfl
theorem Formed.slotReadComplete (bytes : Table 64 Byte) :
    Formed.Statement (.slotReadComplete bytes) := formed_of_wellFormed rfl
theorem Formed.stateWriteComplete : Formed.Statement .stateWriteComplete := formed_of_wellFormed rfl
theorem Formed.rewriteEnd : Formed.Statement .rewriteEnd := formed_of_wellFormed rfl
theorem Formed.meterRewriteEnd : Formed.Statement .meterRewriteEnd := formed_of_wellFormed rfl
theorem Formed.areaBusError : Formed.Statement .areaBusError := formed_of_wellFormed rfl
theorem Formed.busGrant : Formed.Statement .busGrant := formed_of_wellFormed rfl
theorem Formed.setMode (slot : SlotIx) (p : SetModeParams) :
    Formed.Statement (.setMode slot p) := formed_of_wellFormed rfl
theorem Formed.zoneSet (slot : SlotIx) (p : ZoneSetParams) :
    Formed.Statement (.zoneSet slot p) := formed_of_wellFormed rfl
theorem Formed.zoneFill (slot : SlotIx) (p : ZoneFillParams) :
    Formed.Statement (.zoneFill slot p) := formed_of_wellFormed rfl
theorem Formed.zonesetDefine (slot : SlotIx) (p : ZonesetDefineParams) :
    Formed.Statement (.zonesetDefine slot p) := formed_of_wellFormed rfl
theorem Formed.routeSet (slot : SlotIx) (p : RouteSetParams) :
    Formed.Statement (.routeSet slot p) := formed_of_wellFormed rfl
theorem Formed.announce (slot : SlotIx) (p : AnnounceParams) :
    Formed.Statement (.announce slot p) := formed_of_wellFormed rfl
theorem Formed.announceCancel (slot : SlotIx) (p : AnnounceCancelParams) :
    Formed.Statement (.announceCancel slot p) := formed_of_wellFormed rfl
theorem Formed.stationSet (slot : SlotIx) (p : StationSetParams) :
    Formed.Statement (.stationSet slot p) := formed_of_wellFormed rfl
theorem Formed.intercomConfig (slot : SlotIx) (p : IntercomConfigParams) :
    Formed.Statement (.intercomConfig slot p) := formed_of_wellFormed rfl
theorem Formed.callConnect (slot : SlotIx) (p : CallConnectParams) :
    Formed.Statement (.callConnect slot p) := formed_of_wellFormed rfl
theorem Formed.callRelease (slot : SlotIx) (p : CallReleaseParams) :
    Formed.Statement (.callRelease slot p) := formed_of_wellFormed rfl
theorem Formed.alarmConfig (slot : SlotIx) (p : AlarmConfigParams) :
    Formed.Statement (.alarmConfig slot p) := formed_of_wellFormed rfl
theorem Formed.alarmTest (slot : SlotIx) (p : AlarmTestParams) :
    Formed.Statement (.alarmTest slot p) := formed_of_wellFormed rfl
theorem Formed.patternLoad (slot : SlotIx) (p : PatternLoadParams) :
    Formed.Statement (.patternLoad slot p) := formed_of_wellFormed rfl
theorem Formed.streamSet (slot : SlotIx) (p : StreamSetParams) :
    Formed.Statement (.streamSet slot p) := formed_of_wellFormed rfl
theorem Formed.streamStart (slot : SlotIx) (p : StreamStartParams) :
    Formed.Statement (.streamStart slot p) := formed_of_wellFormed rfl
theorem Formed.streamStop (slot : SlotIx) (p : StreamStopParams) :
    Formed.Statement (.streamStop slot p) := formed_of_wellFormed rfl
theorem Formed.streamLevel (slot : SlotIx) (p : StreamLevelParams) :
    Formed.Statement (.streamLevel slot p) := formed_of_wellFormed rfl
theorem Formed.showLoad (slot : SlotIx) (p : ShowLoadParams) :
    Formed.Statement (.showLoad slot p) := formed_of_wellFormed rfl
theorem Formed.showGo (slot : SlotIx) : Formed.Statement (.showGo slot) := formed_of_wellFormed rfl
theorem Formed.showHold (slot : SlotIx) : Formed.Statement (.showHold slot) := formed_of_wellFormed rfl
theorem Formed.showResume (slot : SlotIx) : Formed.Statement (.showResume slot) := formed_of_wellFormed rfl
theorem Formed.showStop (slot : SlotIx) (p : ShowStopParams) :
    Formed.Statement (.showStop slot p) := formed_of_wellFormed rfl
theorem Formed.auTeardown : Formed.Statement .auTeardown := formed_of_wellFormed rfl
theorem Formed.isTeardown : Formed.Statement .isTeardown := formed_of_wellFormed rfl
theorem Formed.suTeardown : Formed.Statement .suTeardown := formed_of_wellFormed rfl
theorem Formed.jobReset (u : Block) : Formed.Statement (.jobReset u) := fun h => .inr (.inl ⟨u, h, rfl⟩)
theorem Formed.mixPeriodStart : Formed.Statement .mixPeriodStart := formed_of_wellFormed rfl
theorem Formed.claimRequest (u : Block) : Formed.Statement (.claimRequest u) := fun h => .inl ⟨u, h, .inl rfl⟩
theorem Formed.releaseRequest (u : Block) :
    Formed.Statement (.releaseRequest u) := fun h => .inl ⟨u, h, .inr (.inl rfl)⟩
theorem Formed.heldPeriodDelivery (src : Source) :
    Formed.Statement (.heldPeriodDelivery src) := formed_of_wellFormed rfl
theorem Formed.streamPosting : Formed.Statement .streamPosting := formed_of_wellFormed rfl
theorem Formed.conversationPosting : Formed.Statement .conversationPosting := formed_of_wellFormed rfl
theorem Formed.pageChannelPosting : Formed.Statement .pageChannelPosting := formed_of_wellFormed rfl
theorem Formed.silencedPosting : Formed.Statement .silencedPosting := formed_of_wellFormed rfl
theorem Formed.modePosting : Formed.Statement .modePosting := formed_of_wellFormed rfl
theorem Formed.lineStatusReport (p : AmpPort) : Formed.Statement (.lineStatusReport p) := formed_of_wellFormed rfl
theorem Formed.ampPassLoss (p : AmpPort) : Formed.Statement (.ampPassLoss p) := formed_of_wellFormed rfl
theorem Formed.releaseNotice : Formed.Statement .releaseNotice := formed_of_wellFormed rfl
theorem Formed.eligibilityExamination : Formed.Statement .eligibilityExamination := formed_of_wellFormed rfl
theorem Formed.auPeriodStart : Formed.Statement .auPeriodStart := formed_of_wellFormed rfl
theorem Formed.entryExpiry : Formed.Statement .entryExpiry := formed_of_wellFormed rfl
theorem Formed.clipEnd (p : Player) : Formed.Statement (.clipEnd p) := formed_of_wellFormed rfl
theorem Formed.playerChimeEnd (p : Player) : Formed.Statement (.playerChimeEnd p) := formed_of_wellFormed rfl
theorem Formed.clipFetchComplete (r : BusRead 192) :
    Formed.Statement (.clipFetchComplete r) := formed_of_wellFormed rfl
theorem Formed.preemption : Formed.Statement .preemption := formed_of_wellFormed rfl
theorem Formed.call (st : Station) (target : BitVec 8) :
    Formed.Statement (.call st target) := formed_of_wellFormed rfl
theorem Formed.answer (st : Station) : Formed.Statement (.answer st) := formed_of_wellFormed rfl
theorem Formed.clear (st : Station) : Formed.Statement (.clear st) := formed_of_wellFormed rfl
theorem Formed.groupJoin (st : Station) (group : BitVec 8) :
    Formed.Statement (.groupJoin st group) := formed_of_wellFormed rfl
theorem Formed.page (st : Station) (set : BitVec 7) (emergency : Bool) :
    Formed.Statement (.page st set emergency) := formed_of_wellFormed rfl
theorem Formed.talkDown (st : Station) : Formed.Statement (.talkDown st) := formed_of_wellFormed rfl
theorem Formed.talkUp (st : Station) : Formed.Statement (.talkUp st) := formed_of_wellFormed rfl
theorem Formed.undefinedStationEvent (st : Station) (code : BitVec 4) :
    Formed.Statement (.undefinedStationEvent st code) := by
  intro h
  simp only [Instr.wellFormed, Bool.or_eq_false_iff, decide_eq_false_iff_not, Nat.not_le] at h
  exact .inr (.inr (.inr ⟨st, code, h.1, h.2, rfl⟩))
theorem Formed.isPeriodStart (first : List Station) :
    Formed.Statement (.isPeriodStart first) := fun h => .inr (.inr (.inl ⟨first, of_decide_eq_false h, rfl⟩))
theorem Formed.ringTimeout (st : Station) : Formed.Statement (.ringTimeout st) := formed_of_wellFormed rfl
theorem Formed.waitTimeout (st : Station) : Formed.Statement (.waitTimeout st) := formed_of_wellFormed rfl
theorem Formed.pageLimitExpiry (c : Channel) : Formed.Statement (.pageLimitExpiry c) := formed_of_wellFormed rfl
theorem Formed.pageChimeEnd (c : Channel) : Formed.Statement (.pageChimeEnd c) := formed_of_wellFormed rfl
theorem Formed.portCondition (p : StationPort) : Formed.Statement (.portCondition p) := formed_of_wellFormed rfl
theorem Formed.panelFrameArrival (p : PanelPort) : Formed.Statement (.panelFrameArrival p) := formed_of_wellFormed rfl
theorem Formed.panelPassChange (p : PanelPort) : Formed.Statement (.panelPassChange p) := formed_of_wellFormed rfl
theorem Formed.alert : Formed.Statement .alert := formed_of_wellFormed rfl
theorem Formed.general : Formed.Statement .general := formed_of_wellFormed rfl
theorem Formed.abandon : Formed.Statement .abandon := formed_of_wellFormed rfl
theorem Formed.silence : Formed.Statement .silence := formed_of_wellFormed rfl
theorem Formed.resound : Formed.Statement .resound := formed_of_wellFormed rfl
theorem Formed.standDown : Formed.Statement .standDown := formed_of_wellFormed rfl
theorem Formed.mauPeriodStart : Formed.Statement .mauPeriodStart := formed_of_wellFormed rfl
theorem Formed.alarmTestEnd : Formed.Statement .alarmTestEnd := formed_of_wellFormed rfl
theorem Formed.patternListComplete (r : BusRead 272) :
    Formed.Statement (.patternListComplete r) := formed_of_wellFormed rfl
theorem Formed.stepEnd (g : Generator) : Formed.Statement (.stepEnd g) := formed_of_wellFormed rfl
theorem Formed.suPeriodStart : Formed.Statement .suPeriodStart := formed_of_wellFormed rfl
theorem Formed.fadeEnd (c : Stream) : Formed.Statement (.fadeEnd c) := formed_of_wellFormed rfl
theorem Formed.blockEnd (c : Stream) : Formed.Statement (.blockEnd c) := formed_of_wellFormed rfl
theorem Formed.probeComplete (r : BusRead 16) : Formed.Statement (.probeComplete r) := formed_of_wellFormed rfl
theorem Formed.blockFetchComplete (r : BusRead 192) :
    Formed.Statement (.blockFetchComplete r) := formed_of_wellFormed rfl
theorem Formed.descriptorWriteComplete (busError : Bool) :
    Formed.Statement (.descriptorWriteComplete busError) := formed_of_wellFormed rfl
theorem Formed.cueFire : Formed.Statement .cueFire := formed_of_wellFormed rfl
theorem Formed.cueListReadComplete (r : BusRead 16) :
    Formed.Statement (.cueListReadComplete r) := formed_of_wellFormed rfl
theorem Formed.alarmHold : Formed.Statement .alarmHold := formed_of_wellFormed rfl
theorem Formed.signalPresent (p : Port) : Formed.Statement (.signalPresent p) := formed_of_wellFormed rfl
theorem Formed.signalLost (p : Port) : Formed.Statement (.signalLost p) := formed_of_wellFormed rfl
theorem Formed.frameMissing (p : Port) : Formed.Statement (.frameMissing p) := formed_of_wellFormed rfl
theorem Formed.stationFrame (p : StationPort) (f : StationFrame) :
    Formed.Statement (.stationFrame p f) := formed_of_wellFormed rfl
theorem Formed.panelFrame (p : PanelPort) (f : PanelFrame) :
    Formed.Statement (.panelFrame p f) := formed_of_wellFormed rfl
theorem Formed.backChannelFrame (p : AmpPort) (f : BackFrame) :
    Formed.Statement (.backChannelFrame p f) := formed_of_wellFormed rfl
theorem Formed.stationTransmit (p : StationPort) : Formed.Statement (.stationTransmit p) := formed_of_wellFormed rfl
theorem Formed.panelTransmit (p : PanelPort) : Formed.Statement (.panelTransmit p) := formed_of_wellFormed rfl
theorem Formed.amplifierTransmit (p : AmpPort) : Formed.Statement (.amplifierTransmit p) := formed_of_wellFormed rfl
theorem Formed.claimAnswer (u : Block) : Formed.Statement (.claimAnswer u) := fun h => .inl ⟨u, h, .inr (.inr rfl)⟩
theorem Formed.referenceWord (st : Station) : Formed.Statement (.referenceWord st) := formed_of_wellFormed rfl

end Sys2Proof.Laws
end

