-- ==== Sys2Proof/Laws/Players.lean ====
section
/-! SUPPORT. What the operations on one announcement player can do: each touches that player's record, the pending mark of the
examination, what AU has sent ZM, the transfers waiting, and the slot it completes. -/

namespace Sys2Proof.Machine

/-- `t` is `s` but for player records, the examination mark, what AU has sent ZM, the transfers waiting, and
completions. -/
structure TouchesPlayers (s t : State) : Prop where
  pending : t.pending = s.pending
  zm : t.zm = s.zm
  ic : t.ic = s.ic
  mau : t.mau = s.mau
  su : t.su = s.su
  lp : t.lp = s.lp
  waitList : t.au.waitList = s.au.waitList
  exam : t.au.exam = s.au.exam
  mark : s.au.examPending = true → t.au.examPending = true
  xu : t.xu = { s.xu with shadows := t.xu.shadows, refusals := t.xu.refusals }
  net : ∃ m d, t.net = { s.net with auToZm := s.net.auToZm ++ m, deliveries := s.net.deliveries ++ d }
  bus : ∃ q, t.bus = ⟨s.bus.waiting ++ q, s.bus.current⟩

/-- The same, and of the players only `p` differs. -/
structure TouchesPlayer (p : Player) (s t : State) : Prop extends TouchesPlayers s t where
  others : ∀ q, q ≠ p → t.player q = s.player q

theorem TouchesPlayers.refl (s : State) : TouchesPlayers s s :=
  ⟨rfl, rfl, rfl, rfl, rfl, rfl, rfl, rfl, id, rfl, ⟨[], [], by simp⟩, ⟨[], by simp⟩⟩

theorem TouchesPlayers.trans {s t u : State} (h : TouchesPlayers s t) (k : TouchesPlayers t u) : TouchesPlayers s u where
  pending := k.pending.trans h.pending
  zm := k.zm.trans h.zm
  ic := k.ic.trans h.ic
  mau := k.mau.trans h.mau
  su := k.su.trans h.su
  lp := k.lp.trans h.lp
  waitList := k.waitList.trans h.waitList
  exam := k.exam.trans h.exam
  mark := fun e => k.mark (h.mark e)
  xu := by rw [k.xu, h.xu]
  net := by
    obtain ⟨m, d, h1⟩ := h.net
    obtain ⟨m', d', k1⟩ := k.net
    exact ⟨m ++ m', d ++ d', by rw [k1, h1]; simp⟩
  bus := by
    obtain ⟨q, h1⟩ := h.bus
    obtain ⟨r, k1⟩ := k.bus
    exact ⟨q ++ r, by rw [k1, h1]; simp⟩

theorem TouchesPlayer.refl (p : Player) (s : State) : TouchesPlayer p s s := ⟨.refl s, fun _ _ => rfl⟩

theorem TouchesPlayer.trans {p : Player} {s t u : State} (h : TouchesPlayer p s t) (k : TouchesPlayer p t u) :
    TouchesPlayer p s u :=
  ⟨h.toTouchesPlayers.trans k.toTouchesPlayers, fun q hq => (k.others q hq).trans (h.others q hq)⟩

/-! ## The operations -/

@[simp] theorem State.setPlayer_player (s : State) (p : Player) (r : PlayerRec) : (s.setPlayer p r).player p = r := by
  simp [State.setPlayer, State.player]

theorem State.setPlayer_player_ne (s : State) {p q : Player} (r : PlayerRec) (h : q ≠ p) :
    (s.setPlayer p r).player q = s.player q := by simp [State.setPlayer, State.player, h]

@[simp] theorem State.deliver_player (s : State) (src : Source) (x : Period) (p : Player) :
    (s.deliver src x).player p = s.player p := rfl

@[simp] theorem State.issue_player (s : State) (ts : List Transfer) (p : Player) : (s.issue ts).player p = s.player p :=
  rfl

theorem touches_setPlayer (s : State) (p : Player) (r : PlayerRec) : TouchesPlayer p s (s.setPlayer p r) :=
  ⟨⟨rfl, rfl, rfl, rfl, rfl, rfl, rfl, rfl, id, rfl, ⟨[], [], by simp [State.setPlayer]⟩,
    ⟨[], by simp [State.setPlayer]⟩⟩, fun _ h => s.setPlayer_player_ne r h⟩

theorem player_touches_deliver (s : State) (p : Player) (src : Source) (x : Period) :
    TouchesPlayer p s (s.deliver src x) :=
  ⟨⟨rfl, rfl, rfl, rfl, rfl, rfl, rfl, rfl, id, rfl, ⟨[], [(src, x)], by simp [State.deliver]⟩,
    ⟨[], by simp [State.deliver]⟩⟩, fun _ _ => rfl⟩

theorem player_touches_issue (s : State) (p : Player) (ts : List Transfer) : TouchesPlayer p s (s.issue ts) :=
  ⟨⟨rfl, rfl, rfl, rfl, rfl, rfl, rfl, rfl, id, rfl, ⟨[], [], by simp [State.issue]⟩, ⟨ts, rfl⟩⟩, fun _ _ => rfl⟩

theorem touches_enterClip (s : State) (p : Player) : TouchesPlayer p s (s.enterClip p) := by
  unfold State.enterClip
  exact (touches_setPlayer s p _).trans (player_touches_issue _ p _)

/-- A player that enters CLIP (R57). -/
theorem State.enterClip_player (s : State) (p : Player) :
    (s.enterClip p).player p =
      { s.player p with
        phase := .clip, gen := none, lead := true, mark0 := .requested
        mark1 := if 2 ≤ (s.player p).clipLen then .requested else .notRequested } := by
  simp [State.enterClip]

/-- What quieting a player does (R55). -/
theorem State.quietPlayer_eq (s : State) (p : Player) :
    s.quietPlayer p =
      { s with
        zm :=
          { s.zm with
            held :=
              { s.zm.held with
                players := s.zm.held.players.set p { s.zm.held.players.get p with fresh := false } } }
        net := { s.net with deliveries := s.net.deliveries.filter fun d => decide (d.1 ≠ .player p) } } := rfl

@[simp] theorem State.quietPlayer_au (s : State) (p : Player) : (s.quietPlayer p).au = s.au := rfl
@[simp] theorem State.quietPlayer_player (s : State) (p q : Player) : (s.quietPlayer p).player q = s.player q := rfl
@[simp] theorem State.quietPlayer_bus (s : State) (p : Player) : (s.quietPlayer p).bus = s.bus := rfl
@[simp] theorem State.quietPlayer_xu (s : State) (p : Player) : (s.quietPlayer p).xu = s.xu := rfl

/-- What starting a player does: it quiets the player, and then touches no other player. -/
theorem touches_startPlayer (s : State) (p : Player) (e : Entry) (m : ZoneMask) :
    TouchesPlayer p (s.quietPlayer p) (s.startPlayer p e m) := by
  unfold State.startPlayer
  simp only
  split
  · exact touches_setPlayer _ p _
  · exact (touches_setPlayer _ p _).trans (touches_enterClip _ p)

/-- The counts after AU has taken a teardown (R110, R199). -/
theorem Net.auTookTeardown_eq (n : Net) (q : List XuPart) :
    n.auTookTeardown q =
      { n with
        xuToAu := q
        releaseNotices := n.releaseNotices + if XuPart.teardown ∈ q then 0 else n.heldNotices
        heldNotices := if XuPart.teardown ∈ q then n.heldNotices else 0 } := by
  unfold Net.auTookTeardown
  split <;> rfl

/-- The end of a player: its zones are released, it is FREE, an examination is pending, and its slot completes. -/
theorem State.endPlayer_eq (s : State) (p : Player) (o : JobOutcome) :
    s.endPlayer p o =
      let u : State :=
        { s with
          au := { s.au with players := s.au.players.set p (s.player p).freed, examPending := true }
          net := { s.net with auToZm := s.net.auToZm ++ [.release (.programmed p) (s.player p).admitted] } }
      match (s.player p).origin with
      | some (.slot k) => u.completed k (.done o (s.player p).results)
      | _ => u := by
  unfold State.endPlayer
  cases h : (s.player p).origin with
  | none => simp only [h, Option.bind_none, State.handOver?]; rfl
  | some x =>
    cases x with
    | slot k =>
      simp only [h, Option.bind_some, Origin.slot?, State.handOver?, handOver_eq]
      rfl
    | cue n => simp only [h, Option.bind_some, Origin.slot?, State.handOver?]; rfl

theorem touches_endPlayer (s : State) (p : Player) (o : JobOutcome) : TouchesPlayer p s (s.endPlayer p o) := by
  rw [State.endPlayer_eq]
  have others : ∀ q, q ≠ p → (s.au.players.set p (s.player p).freed).get q = s.player q :=
    fun q h => Table.get_set_ne _ _ h
  simp only
  split
  · exact ⟨⟨rfl, rfl, rfl, rfl, rfl, rfl, rfl, rfl, fun _ => rfl, rfl, ⟨_, [], by simp [State.completed]; rfl⟩,
      ⟨_, rfl⟩⟩, others⟩
  · exact ⟨⟨rfl, rfl, rfl, rfl, rfl, rfl, rfl, rfl, fun _ => rfl, rfl, ⟨_, [], by simp; rfl⟩, ⟨[], by simp⟩⟩, others⟩

@[simp] theorem State.endPlayer_player (s : State) (p : Player) (o : JobOutcome) :
    (s.endPlayer p o).player p = (s.player p).freed := by
  rw [State.endPlayer_eq]
  simp only
  split <;> simp [State.player, State.completed]

theorem touches_stopPlayer (s : State) (p : Player) (o : JobOutcome) : TouchesPlayer p s (s.stopPlayer o p) := by
  unfold State.stopPlayer
  split
  · exact .refl p s
  · exact touches_endPlayer s p o

theorem State.stopPlayer_player (s : State) (p : Player) (o : JobOutcome) :
    (s.stopPlayer o p).player p = if (s.player p).phase = .free then s.player p else (s.player p).freed := by
  unfold State.stopPlayer
  split <;> simp

theorem touches_readHeldBack (s : State) (p : Player) : TouchesPlayer p s (s.readHeldBack p) :=
  touches_setPlayer s p _

theorem touches_chimePeriod (s : State) (p : Player) (g : Gen) : TouchesPlayer p s (s.chimePeriod p g) := by
  unfold State.chimePeriod
  simp only
  split
  · exact (player_touches_deliver s p _ _).trans (touches_setPlayer _ p _)
  · exact (player_touches_deliver s p _ _).trans (touches_enterClip _ p)

theorem touches_clipPeriod (s : State) (p : Player) : TouchesPlayer p s (s.clipPeriod p) := by
  unfold State.clipPeriod
  simp only
  have h : ∀ r, TouchesPlayer p s ((match (s.player p).mark0.samples? with
      | some x => s.deliver (.player p) x
      | none => s).setPlayer p r) := by
    intro r
    split
    · exact (player_touches_deliver s p _ _).trans (touches_setPlayer _ p _)
    · exact touches_setPlayer s p _
  split
  · split
    · exact ((h _).trans (player_touches_issue _ p _)).trans (touches_endPlayer _ p _)
    · exact (h _).trans (touches_endPlayer _ p _)
  · split
    · exact (h _).trans (player_touches_issue _ p _)
    · exact h _

theorem touches_playerPeriod (s : State) (p : Player) : TouchesPlayer p s (s.playerPeriod p) := by
  unfold State.playerPeriod
  split
  · exact .refl p s
  · simp only
    split
    · exact (touches_readHeldBack s p).trans (touches_chimePeriod _ p _)
    · split
      · exact (touches_readHeldBack s p).trans (touches_setPlayer _ p _)
      · split
        · exact (touches_readHeldBack s p).trans (touches_clipPeriod _ p)
        · exact touches_readHeldBack s p
    · exact touches_readHeldBack s p

/-! ## Every player in turn -/

/-- A step that touches each player in turn, where the effect on a player rests on its record and on what the steps leave
alone, gives every player that effect. -/
theorem each_player (f : State → Player → State) (g : Player → PlayerRec → PlayerRec) (s : State)
    (ht : ∀ t p, TouchesPlayer p t (f t p))
    (hg : ∀ t p, TouchesPlayers s t → (f t p).player p = g p (t.player p)) :
    TouchesPlayers s ((List.finRange 4).foldl f s)
      ∧ ∀ p, ((List.finRange 4).foldl f s).player p = g p (s.player p) :=
  foldl_entries f State.player g (TouchesPlayers s) (fun t p h => h.trans (ht t p).toTouchesPlayers) hg
    (fun t p _ _ hq => (ht t p).others _ hq) s (.refl s)

end Sys2Proof.Machine
end

