-- ==== Sys2Proof/Laws/Wire.lean ====
section
/-! SUPPORT. A field of a frame reads back what was written where it stands. -/

namespace Sys2Proof.Machine

@[simp] theorem length_bitsOf {n : Nat} (v : BitVec n) : (bitsOf v).length = n := by simp [bitsOf]

theorem foldl_getMsbD {n : Nat} (v : BitVec n) (k : Nat) (hk : k ≤ n) :
    (List.range k).foldl (fun a i => 2 * a + (v.getMsbD i).toNat) 0 = v.toNat / 2 ^ (n - k) := by
  induction k with
  | zero => simp [Nat.div_eq_of_lt v.isLt]
  | succ k ih =>
    obtain ⟨j, hj⟩ : ∃ j, n - k = j + 1 := ⟨n - k - 1, by omega⟩
    have hb : v.getMsbD k = v.toNat.testBit j := by
      rw [BitVec.getMsbD, decide_eq_true (by omega : k < n), Bool.true_and, BitVec.getLsbD]
      congr 1
      omega
    rw [List.range_succ, List.foldl_append, ih (by omega), List.foldl_cons, List.foldl_nil, hb, Nat.toNat_testBit, hj,
      show n - (k + 1) = j by omega, Nat.pow_succ, ← Nat.div_div_eq_div_mul]
    omega

/-- A field that stands behind `before` reads as its value. -/
theorem bitField_bitsOf {n : Nat} (v : BitVec n) (before after : List Bool) :
    bitField (before ++ bitsOf v ++ after) before.length n = v := by
  have h : ((before ++ bitsOf v ++ after).drop before.length).take n = bitsOf v := by
    rw [List.append_assoc, List.drop_left]
    exact List.take_left' (length_bitsOf v)
  rw [bitField, h, bitsOf, List.foldl_map, foldl_getMsbD v n (Nat.le_refl n)]
  simp

end Sys2Proof.Machine
end

