-- ==== Sys2Proof/Laws/Zones.lean ====
section
/-! SUPPORT. What the operations of the zone table can do: each says zone by zone what a recomputation, a claim, a release or a
writing of settings leaves. -/

namespace Sys2Proof.Machine

theorem index_some {n : Nat} (i : Fin n) {k : Nat} (h : i.val = k) : index n k = some i := by
  subst h
  simp [index]

theorem index_none {n k : Nat} (h : ¬k < n) : index n k = none := by simp [index, h]

/-! ## Recomputation -/

/-- Whether SHOW is active in a zone rests on its flags, the stream copies and the crosspoints alone. -/
theorem Zm.showActive_congr {m n : Zm} {z : Zone}
    (hf : (m.zones.get z).settings.flags.theatre = (n.zones.get z).settings.flags.theatre)
    (hs : m.streams = n.streams) (hc : m.cross = n.cross) : m.showActive z = n.showActive z := by
  simp only [Zm.showActive, hf, hs, hc]

theorem Zm.recompute_get (m : Zm) (mode : Mode) (p : Zone → Bool) (z : Zone) :
    (m.recompute mode p).zones.get z =
      if p z then
        { m.zones.get z with target := (m.zones.get z).targets mode m.silenced (m.showActive z) }
      else m.zones.get z := by
  simp only [Zm.recompute, Table.get_update, Zm.retargeted]

theorem Zm.rederive_get (m : Zm) (p : Zone → Bool) (z : Zone) :
    (m.rederive p).zones.get z =
      if p z then
        { m.zones.get z with
          override := overrideBit (m.zones.get z).settings.threshold (m.zones.get z).holders }
      else m.zones.get z := by
  simp only [Zm.rederive, Table.get_update]

theorem Zm.refresh_get (m : Zm) (mode : Mode) (p : Zone → Bool) (z : Zone) :
    (m.refresh mode p).zones.get z =
      if p z then
        { m.zones.get z with
          target := (m.zones.get z).targets mode m.silenced (m.showActive z)
          override := overrideBit (m.zones.get z).settings.threshold (m.zones.get z).holders }
      else m.zones.get z := by
  rw [Zm.refresh, Zm.rederive_get, Zm.recompute_get]
  split <;> simp_all

/-- Only zones differ after a recomputation. -/
theorem Zm.recompute_rest (m : Zm) (mode : Mode) (p : Zone → Bool) :
    m.recompute mode p = { m with zones := (m.recompute mode p).zones } := rfl

theorem Zm.refresh_rest (m : Zm) (mode : Mode) (p : Zone → Bool) :
    m.refresh mode p = { m with zones := (m.refresh mode p).zones } := rfl

/-! ## Claims and releases -/

theorem Zm.hold_get (m : Zm) (mode : Mode) (mask : ZoneMask) (f : Holders → Holders) (z : Zone) :
    (m.hold mode mask f).zones.get z =
      if inMask mask z then
        let h := f (m.zones.get z).holders
        { m.zones.get z with
          holders := h
          target := ({ m.zones.get z with holders := h } : ZoneRec).targets mode m.silenced (m.showActive z)
          override := overrideBit (m.zones.get z).settings.threshold h }
      else m.zones.get z := by
  unfold Zm.hold
  rw [Zm.refresh_get]
  by_cases hz : inMask mask z = true
  · simp only [hz, if_true, Table.get_update]
    congr 2
    apply Zm.showActive_congr <;> simp [hz]
  · simp [hz]

theorem Zm.hold_rest (m : Zm) (mode : Mode) (mask : ZoneMask) (f : Holders → Holders) :
    m.hold mode mask f = { m with zones := (m.hold mode mask f).zones } := rfl

/-- The admission rule of a claim, zone by zone (R8). -/
theorem Zm.admitted_iff (m : Zm) (c : Claim) (k : ZoneMask) (manner : Manner) (z : Zone) :
    inMask (m.admitted c k manner) z = true ↔
      inMask k z = true ∧ (m.zones.get z).holders.admits c = true
        ∧ (manner = .allOrNone → ∀ y, inMask k y = true → (m.zones.get y).holders.admits c = true) := by
  have key : (maskOf fun z => inMask k z && (m.zones.get z).holders.admits c) = k
      ↔ ∀ y, inMask k y = true → (m.zones.get y).holders.admits c = true := by
    constructor
    · intro h y hy
      have := congrArg (fun a => inMask a y) h
      simp only [inMask_maskOf] at this
      rw [hy] at this
      simpa using this
    · intro h
      apply mask_ext
      intro y
      rw [inMask_maskOf]
      by_cases hy : inMask k y = true
      · simp [hy, h y hy]
      · simp [hy]
  unfold Zm.admitted
  cases manner with
  | any => simp
  | allOrNone =>
    simp only
    by_cases h : ∀ y, inMask k y = true → (m.zones.get y).holders.admits c = true
    · rw [if_pos (key.mpr h), inMask_maskOf, Bool.and_eq_true]
      exact ⟨fun e => ⟨e.1, e.2, fun _ => h⟩, fun e => ⟨e.1, e.2.1⟩⟩
    · rw [if_neg (fun e => h (key.mp e)), inMask_zero]
      exact ⟨fun e => (Bool.false_ne_true e).elim, fun e => absurd (e.2.2 trivial) h⟩

/-- What taking a claim does: the message goes, the holders are written, the unit is answered, a stage is published. -/
theorem State.takeClaim_eq (s : State) (u : Block) (c : Claim) (k : Candidates) (manner : Manner) (stage : Option Stage) :
    s.takeClaim u c k manner stage =
      { s with
        zm := s.zm.hold s.xu.mode (s.zm.admitted c (s.zm.candidates k) manner) fun h => h.write c
        mau := { s.mau with published := stage.getD s.mau.published }
        net :=
          (s.net.setToZm u (s.net.toZm u).tail).setAnswer u (some (s.zm.admitted c (s.zm.candidates k) manner)) } := by
  cases stage <;> rfl

theorem Zm.emptied_iff (m : Zm) (c : Claim) (k : ZoneMask) (z : Zone) :
    inMask (m.emptied c k) z = true ↔
      inMask k z = true ∧ (m.zones.get z).holders.release c ≠ (m.zones.get z).holders := by
  simp [Zm.emptied]

/-- What taking a release does. -/
theorem State.takeRelease_eq (s : State) (u : Block) (c : Claim) (k : ZoneMask) :
    s.takeRelease u c k =
      { s with
        zm := s.zm.hold s.xu.mode (s.zm.emptied c k) fun h => h.release c
        net :=
          let n := s.net.setToZm u (s.net.toZm u).tail
          if s.zm.emptied c k = 0 then n else n.postNotice } := by
  unfold State.takeRelease
  simp only
  split <;> rfl

/-- The counts after a notice is posted: behind a teardown AU has not taken it is held (R199). -/
theorem Net.postNotice_eq (n : Net) :
    n.postNotice =
      { n with
        releaseNotices := n.releaseNotices + if XuPart.teardown ∈ n.xuToAu then 0 else 1
        heldNotices := n.heldNotices + if XuPart.teardown ∈ n.xuToAu then 1 else 0 } := by
  unfold Net.postNotice
  split <;> rfl

@[simp] theorem Net.setToZm_xuToAu (n : Net) (u : Block) (q : List ZmMsg) : (n.setToZm u q).xuToAu = n.xuToAu := by
  cases u <;> rfl

@[simp] theorem Net.setToZm_releaseNotices (n : Net) (u : Block) (q : List ZmMsg) :
    (n.setToZm u q).releaseNotices = n.releaseNotices := by cases u <;> rfl

@[simp] theorem Net.setToZm_heldNotices (n : Net) (u : Block) (q : List ZmMsg) :
    (n.setToZm u q).heldNotices = n.heldNotices := by cases u <;> rfl

/-! ## Settings, crosspoints, lines and stream copies -/

theorem Zm.configure_get (m : Zm) (mode : Mode) (mask : Zone → Bool) (f : ZoneSettings → ZoneSettings) (z : Zone) :
    (m.configure mode mask f).zones.get z =
      if mask z then
        let w := f (m.zones.get z).settings
        { m.zones.get z with
          settings := w
          target := ({ m.zones.get z with settings := w } : ZoneRec).targets mode m.silenced
            ((m.configure mode mask f).showActive z)
          override := overrideBit w.threshold (m.zones.get z).holders }
      else m.zones.get z := by
  have hs : (m.configure mode mask f).showActive z
      = ({ m with
          zones := m.zones.update fun z r => if mask z then { r with settings := f r.settings } else r } : Zm).showActive
          z := by
    apply Zm.showActive_congr
    · unfold Zm.configure
      rw [Zm.refresh_get]
      split <;> simp_all
    · rfl
    · rfl
  by_cases hz : mask z = true
  · rw [if_pos hz, hs]
    unfold Zm.configure
    rw [Zm.refresh_get, if_pos hz]
    simp [hz]
  · rw [if_neg hz]
    unfold Zm.configure
    rw [Zm.refresh_get, if_neg hz]
    simp [hz]

theorem Zm.route_get (m : Zm) (mode : Mode) (c : Stream) (mask : ZoneMask) (gain : Nat) (z : Zone) :
    (m.route mode c mask gain).zones.get z =
      if inMask mask z then
        { m.zones.get z with
          target := (m.zones.get z).targets mode m.silenced ((m.route mode c mask gain).showActive z) }
      else m.zones.get z := by
  have hs : (m.route mode c mask gain).showActive z
      = ({ m with
          cross := m.cross.modify c fun row =>
            row.update fun z g => if inMask mask z then clampGain gain else g } : Zm).showActive z := by
    apply Zm.showActive_congr
    · unfold Zm.route
      rw [Zm.recompute_get]
      split <;> rfl
    · rfl
    · rfl
  rw [hs]
  unfold Zm.route
  rw [Zm.recompute_get]

theorem Zm.route_cross (m : Zm) (mode : Mode) (c : Stream) (mask : ZoneMask) (gain : Nat) (d : Stream) (z : Zone) :
    ((m.route mode c mask gain).cross.get d).get z =
      if d = c ∧ inMask mask z then min 32768 gain else (m.cross.get d).get z := by
  simp only [Zm.route, Zm.recompute, Table.get_modify]
  by_cases hd : d = c
  · subst hd
    by_cases hz : inMask mask z = true <;> simp [hz, clampGain_eq]
  · simp [hd]

end Sys2Proof.Machine
end

