-- ==== Sys2Proof/Tests/Slice0.lean ====
section
/-! SUPPORT. Tests: ill-formed terms that WellFormed refuses, the worked figures of the spec, one step of a few commands, and for
each statement of Certificates/Slice0/Obligations.lean with hypotheses a state and operands that meet them, clause by
clause, at the ends of the ranges. -/

namespace Sys2Proof.Tests

open Sys2Proof Sys2Proof.Machine

/-! ## Ill-formed terms are refused -/

theorem test_claim_of_xu_refused : (Instr.claimRequest .xu).wellFormed = false := rfl
theorem test_release_of_su_refused : (Instr.releaseRequest .su).wellFormed = false := rfl
theorem test_answer_at_zm_refused : (Instr.claimAnswer .zm).wellFormed = false := rfl
theorem test_job_reset_of_lp_refused : (Instr.jobReset .lp).wellFormed = false := rfl
theorem test_order_with_duplicate_refused : (Instr.isPeriodStart [3, 5, 3]).wellFormed = false := by decide
theorem test_defined_code_refused : (Instr.undefinedStationEvent 0 7).wellFormed = false := by decide
theorem test_undefined_code_formed : (Instr.undefinedStationEvent 0 8).wellFormed = true := by decide

/-- No row has bits: no word spells a command. -/
theorem test_no_word_spells : decodeTableWord 32 0xFFFFFFFF = none := rfl

/-! ## Worked figures of the spec -/

/-- Section 2.2: the table of rs. -/
theorem test_round_scale :
    [rs 1 16384, rs (-1) 16384, rs 3 16384, rs (-3) 16384, rs (-8388608) 32768, rs 8388607 16384] =
      [1, 0, 2, -1, -8388608, 4194304] := by decide

/-- Section 2.2: 30,000 × 8,192 is 7,500. -/
theorem test_gain_product : gainProduct 30000 8192 = 7500 := by decide

/-- Section 2.10: one settled period. -/
theorem test_settled_period :
    [rs 3000001 20000, rs 1831055 7500, rs 5000000 28000] = [1831055, 419095, 4272461] := by decide

/-- Section 2.11: saturation at an emergency page. -/
theorem test_emergency_page :
    [rs 8000000 28000, rs 5000000 25952, rs 1831055 5452] = [6835938, 3959961, 304654]
      ∧ sat24 11100553 = 8388607 ∧ overflows24 11100553 = true := by decide

/-- Section 2.9: the two fades of the table. -/
theorem test_fades :
    (Fader.fade ⟨32768, 32768, 0⟩ 0 1000, Fader.fade ⟨0, 0, 0⟩ 24576 5000) =
      ((⟨32768, 0, 33⟩ : Fader), (⟨0, 24576, 5⟩ : Fader)) := by decide

/-- Section 7.4: frequency words. -/
theorem test_frequency_words :
    [500, 7000, 7840, 8000, 9000, 10000, 10465, 12000, 80000].map frequencyWord =
      [4473924, 62634940, 70151133, 71582788, 80530637, 89478485, 93639235, 107374182, 715827883] := by decide

/-- Section 7.4: amplitudes. -/
theorem test_amplitudes : [16384, 20000, 24576].map amplitude = [4194304, 5119999, 6291455] := by decide

/-- Section 7.5: a square step. -/
theorem test_square_step :
    let g : Gen := ⟨0, .endless, 0, 10, .on, .square, 6291455, 89478485, 0⟩
    [0, 24, 25, 47, 48, 49].map (fun n => g.sample (g.phaseAfter n)) =
      [6291455, 6291455, -6291455, -6291455, -6291455, 6291455] := by decide

/-- Section 7.6: a triangle step. -/
theorem test_triangle_step :
    let g : Gen := ⟨0, .endless, 0, 10, .on, .triangle, 4194304, 89478485, 0⟩
    [0, 1, 12, 24, 25, 36, 47].map (fun n => g.sample (g.phaseAfter n)) =
      [-4194304, -3844864, -256, 4194048, 3844736, 128, -3844736] := by decide

/-! ## Helpers -/

/-- A record of host memory with the bytes of `l`, and zeros behind them. -/
def bytesOf (n : Nat) (l : List Nat) : Table n Byte := Table.build fun i => BitVec.ofNat 8 (l.getD i.val 0)

/-- The part in NORMAL, attached, with a request being dispatched. -/
def asking (slot : SlotIx) (r : Request) : State :=
  { State.reset with
    xu := { Xu.reset with attach := .attached, mode := .normal, scanInterval := 1, dispatch := some (slot, r) } }

/-- The part attached, in NORMAL, with a transfer in progress. -/
def doing (j : Job) : State :=
  { State.reset with
    xu := { Xu.reset with attach := .attached, mode := .normal }, bus := ⟨[], some ⟨j, 0, 0, [], true⟩⟩ }

/-- What a command leaves, read by `f`. -/
def after {α : Type} (c : Instr) (s : State) (f : State → α) : Option α :=
  match exec c s with
  | .next t => some (f t)
  | _ => none

/-! ## One step -/

/-- R204: AREA_LO loses its low twelve bits, and is not written while attached. -/
theorem test_area_lo :
    (after (.registerWrite .areaLo 0x12345FFF) State.reset fun t => t.xu.areaLo) = some 0x12345000
      ∧ (after (.registerWrite .areaLo 0x12345FFF) (doing .header) fun t => t.xu.areaLo) = some 0 := by decide

/-- R205: a read of NOTICE clears it and drops the line. -/
theorem test_notice_read :
    (after .noticeRead { State.reset with xu := { Xu.reset with notice := 5, noticeEnable := 4 } } fun t =>
      (t.xu.readData, t.xu.notice, t.xu.interrupt)) = some (5, 0, false) := by decide

/-- R97: an OFFLINE station is not IDLE. -/
theorem test_call_connect_refuses_offline :
    (after (.callConnect 3 ⟨0, 63⟩) (asking 3 (.callConnect ⟨0, 63⟩)) fun t => t.xu.shadows.get 3) =
      some (.finished (.refused .state 1)) := by decide

/-- R35: crosspoints are clamped, and the zones of the set are counted. -/
theorem test_route_set :
    (after (.routeSet 0 ⟨15, 0, 40000⟩) (asking 0 (.routeSet ⟨15, 0, 40000⟩)) fun t =>
      ((t.zm.cross.get 15).get 63, (t.zm.cross.get 14).get 63)) = some (32768, 0) := by decide

/-- R48: the checks come in order. -/
theorem test_announce_checks :
    (after (.announce 1 ⟨1, 64, 5, 0, 2, 0, 0⟩) (asking 1 (.announce ⟨1, 64, 5, 0, 2, 0, 0⟩)) fun t =>
      (t.xu.shadows.get 1, t.xu.refusals)) = some (.finished (.refused .format 5), 1) := by decide

/-- R131: a test of the whole ship claims the set and starts the tone. -/
theorem test_alarm_test :
    (after (.alarmTest 2 ⟨2, 0, 0⟩) (asking 2 (.alarmTest ⟨2, 0, 0⟩)) fun t =>
      (t.mau.test.map AlarmTest.left, t.mau.gen.map Gen.freq, t.net.mauToZm.length)) =
      some (some 1, some 107374182, 1) := by decide

/-- R183: the fourth frame in ACQUIRE takes a port to LOCKED, passing at score 16. -/
theorem test_fourth_frame_locks :
    (after (.panelFrame .pa ⟨0, 15, 0, 0⟩)
      { State.reset with
        lp := { Lp.reset with rx := Lp.reset.rx.set 2 { Rx.reset with signal := true, lock := .acquire, acquired := 3, score := 16 } } }
      fun t => ((t.lp.rx.get 2).lock, (t.lp.rx.get 2).pass)) = some (.locked, true) := by decide

/-- R195: forty bits of a panel line, from the sync word D31C to the check, are a frame; another sync word is none. -/
theorem test_panel_line :
    let rest := [5, 15, 0xA, 5, 3, 12].flatMap fun n : Nat => bitsOf (BitVec.ofNat 4 n)
    panelArrival .pb ([true, true, false, true, false, false, true, true, false, false, false, true, true, true, false, false]
        ++ rest) = .panelFrame .pb ⟨5, 15, 0xA5, 0x3C⟩
      ∧ panelArrival .pb (bitsOf (0xD31D : BitVec 16) ++ rest) = .frameMissing .pb := by decide

/-- R55: a player that starts is heard only from its own first delivery on. -/
theorem test_start_quiets_the_player :
    (({ State.reset with
        zm := { Zm.reset with held := { Zm.reset.held with players := Table.fill 4 ⟨silence48, true⟩ } }
        net := { Net.reset with deliveries := [(.player 2, silence48), (.mic 2, silence48)] } } : State).quietPlayer 2 |>
      fun s => ((s.zm.held.get (.player 2)).fresh, (s.zm.held.get (.player 3)).fresh, s.net.deliveries.map Prod.fst)) =
      (false, true, [Source.mic 2]) := by decide

/-- R110, R199: a release notice behind a teardown that AU has not taken waits, and reaches AU with it. -/
theorem test_notice_waits_behind_teardown :
    let s : Net := { Net.reset with xuToAu := [.teardown] }
    (s.postNotice.releaseNotices, s.postNotice.heldNotices) = (0, 1) := by decide

/-! ## Witnesses: the machine, registers, the area -/

/-- A block of XU's fields over the reset state. -/
def withXu (f : Xu → Xu) : State := { State.reset with xu := f Xu.reset }

theorem witness_EmptyQueueTakesXuPeriodStart :
    (∃ s : State, s.pending = [] ∧ s.xu.attach ≠ .attached)
    ∧ (∃ s : State, s.pending = [] ∧ s.xu.attach = .attached ∧ s.xu.scanCount + 1 < s.xu.scanInterval
        ∧ s.xu.meterInterval = 0)
    ∧ (∃ s : State, s.pending = [] ∧ s.xu.attach = .attached ∧ s.xu.scanCount + 1 < s.xu.scanInterval
        ∧ s.xu.meterCount + 1 < s.xu.meterInterval)
    ∧ (∀ count ∈ [998, 999], ∃ s : State, s.pending = [] ∧ s.xu.attach = .attached
        ∧ s.xu.scanInterval ≤ s.xu.scanCount + 1 ∧ s.xu.pass ≠ none ∧ s.xu.meterInterval = 1000 ∧ s.xu.meterCount = count)
    ∧ (∃ s : State, s.pending = [] ∧ s.xu.attach = .attached ∧ s.xu.scanInterval ≤ s.xu.scanCount + 1 ∧ s.xu.pass = none
        ∧ ∀ k, s.xu.shadows.get k ≠ .free)
    ∧ ∃ (s : State) (k : SlotIx), s.pending = [] ∧ s.xu.attach = .attached ∧ s.xu.scanInterval ≤ s.xu.scanCount + 1
        ∧ s.xu.pass = none ∧ s.xu.shadows.get k = .free ∧ k = 63 ∧ ∀ i < k, s.xu.shadows.get i ≠ .free :=
  ⟨⟨.reset, by decide⟩, ⟨withXu fun x => { x with attach := .attached, scanInterval := 2 }, by decide⟩,
    ⟨withXu fun x => { x with attach := .attached, scanInterval := 16, meterInterval := 1000, meterCount := 998 }, by decide⟩,
    fun n _ => ⟨withXu fun x =>
      { x with attach := .attached, pass := some 0, meterInterval := 1000, meterCount := n }, rfl, rfl, by simp [withXu, State.reset, Xu.reset],
      by simp [withXu], rfl, rfl⟩,
    ⟨withXu fun x => { x with attach := .attached, shadows := Table.fill 64 (.taken 0) }, by decide⟩,
    withXu fun x => { x with attach := .attached, shadows := (Table.fill 64 (.taken 0)).set 63 .free }, 63, by decide⟩

/-- A scan expiry and a meter expiry at one period start: both counts start again (R212, R217). -/
theorem test_both_expiries :
    (match step (withXu fun x => { x with attach := .attached, scanCount := 15, scanInterval := 16, meterInterval := 10, meterCount := 9 }) with
      | .next t => some (t.xu.scanCount, t.xu.meterCount, t.xu.pass, t.xu.meterWriting)
      | _ => none) = some (0, 0, some 0, true) := by decide

theorem witness_PowerOnAndHardwareReset :
    (∃ (s : State) (signal : Prop), (signal ↔ ∃ p, (s.lp.rx.get p).signal = true) ∧ signal)
    ∧ ∃ (s : State) (signal : Prop), (signal ↔ ∃ p, (s.lp.rx.get p).signal = true) ∧ ¬signal :=
  ⟨⟨{ State.reset with lp := { Lp.reset with rx := Lp.reset.rx.set 7 { Rx.reset with signal := true } } }, _, Iff.rfl, 7,
      by decide⟩,
    .reset, _, Iff.rfl, by decide⟩

theorem witness_SoftwareResetKeepsAlarmAndLinks :
    (4 : BitVec 32).getLsbD 2 = true
    ∧ ∃ keep : Transfer → Bool, (∀ x, keep x = (x.live && match x.job with | .patternList _ => true | _ => false))
      ∧ keep ⟨.patternList 7, 0, 272, [], true⟩ = true ∧ keep ⟨.patternList 7, 0, 272, [], false⟩ = false
      ∧ keep ⟨.cueList, 0, 16, [], true⟩ = false :=
  ⟨by decide, _, fun _ => rfl, by decide, by decide, by decide⟩

theorem witness_RegistersActAndNoticesClear :
    (∃ s : State, s.xu.attach = .detached) ∧ (∃ s : State, s.xu.attach ≠ .detached)
    ∧ (∀ scan : Bool, ∃ v : BitVec 32, v.getLsbD 2 = false ∧ v.getLsbD 0 = false ∧ v.getLsbD 1 = scan)
    ∧ (∀ (a : Attach) (scan : Bool), ∃ (s : State) (v : BitVec 32), v.getLsbD 2 = false ∧ v.getLsbD 0 = true
        ∧ v.getLsbD 1 = scan ∧ s.xu.attach = a)
    ∧ ∃ s : State, s.xu.interrupt = true :=
  ⟨⟨.reset, rfl⟩, ⟨doing .header, by decide⟩, fun b => ⟨if b then 2 else 0, by cases b <;> decide⟩,
    fun a b => ⟨withXu fun x => { x with attach := a }, if b then 3 else 1, by cases b <;> decide, by cases b <;> decide,
      by cases b <;> decide, rfl⟩,
    withXu fun x => { x with notice := 0x10, noticeEnable := 0x1F }, by decide⟩

theorem witness_AttachAndDetach :
    (∃ s : State, s.xu.attach = .detached) ∧ (∃ s : State, s.xu.attach = .attaching ∧ s.xu.attach ≠ .detached)
    ∧ (∃ area : Job → Bool, ∀ j, area j = true ↔
        match j with
        | .slotRead _ | .header | .taken _ | .results _ | .code _ | .state _ | .pageOpen _ | .pageBody _ | .pageClose _
        | .meterOpen | .meterBody | .meterClose => True
        | _ => False)
    ∧ ∃ (s : State) (j : Job), s.inProgress = some j ∧ j = .slotRead 63 ∧ j ≠ .header :=
  ⟨⟨.reset, rfl⟩, ⟨withXu fun x => { x with attach := .attaching }, by decide⟩,
    ⟨fun j =>
      match j with
      | .slotRead _ | .header | .taken _ | .results _ | .code _ | .state _ | .pageOpen _ | .pageBody _ | .pageClose _
      | .meterOpen | .meterBody | .meterClose => true
      | _ => false, fun j => by cases j <;> simp⟩,
    doing (.slotRead 63), .slotRead 63, rfl, rfl, by decide⟩

/-- A header with the right signature and version, scan interval 0 and meter interval 2,000. -/
def goodHeader : Table 256 Byte := bytesOf 256 [0x57, 0x41, 0x45, 0x31, 1, 0, 0, 0, 0, 0, 0xD0, 7]

theorem witness_HeaderReadDecidesAttach :
    (∃ s : State, s.inProgress = some .header ∧ s.xu.attach = .attaching)
    ∧ bears [(0, 4, 0x31454157), (4, 1, 1), (8, 1, 0), (10, 2, 2000)] goodHeader.toList
    ∧ bears [(0, 4, 0), (4, 1, 0), (8, 1, 0), (10, 2, 0)] (bytesOf 256 []).toList
    ∧ bears [(0, 4, 0x31454157), (4, 1, 2), (8, 1, 0), (10, 2, 0)] (bytesOf 256 [0x57, 0x41, 0x45, 0x31, 2]).toList :=
  ⟨⟨{ doing .header with xu := { Xu.reset with attach := .attaching } }, rfl, rfl⟩, by unfold bears; decide,
    by unfold bears; decide, by unfold bears; decide⟩

/-- The header's intervals are clamped (R206). -/
theorem test_header_intervals :
    (after (.headerReadComplete (.data goodHeader)) { doing .header with xu := { Xu.reset with attach := .attaching } }
      fun t => (t.xu.scanInterval, t.xu.meterInterval)) = some (1, 1000) := by decide

theorem witness_ScanRequestsBeginPasses :
    (∃ s : State, s.xu.attach ≠ .attached) ∧ (∃ s : State, s.xu.attach = .attached ∧ s.xu.pass ≠ none)
    ∧ (∃ (s : State) (k : SlotIx), s.xu.attach = .attached ∧ s.xu.pass = none ∧ s.xu.shadows.get k = .free
        ∧ k = 63 ∧ ∀ i < k, s.xu.shadows.get i ≠ .free)
    ∧ ∃ s : State, s.xu.attach = .attached ∧ s.xu.pass = none ∧ ∀ k, s.xu.shadows.get k ≠ .free :=
  ⟨⟨.reset, by decide⟩, ⟨withXu fun x => { x with attach := .attached, pass := some 0 }, by decide⟩,
    ⟨withXu fun x => { x with attach := .attached, shadows := (Table.fill 64 (.taken 0)).set 63 .free }, 63, by decide⟩,
    withXu fun x => { x with attach := .attached, shadows := Table.fill 64 (.taken 0) }, by decide⟩

/-- A slot read of slot 63 in progress, the pass standing there, in a mode. -/
def reading (m : Mode) : State :=
  { doing (.slotRead 63) with xu := { Xu.reset with attach := .attached, mode := m, pass := some 63 } }

theorem witness_SlotReadTakesPostedRequests :
    (∀ m, (reading m).inProgress = some (.slotRead 63) ∧ (reading m).xu.dispatch = none
      ∧ (reading m).xu.pass = some 63 ∧ (reading m).xu.attach = .attached)
    ∧ (bytesOf 64 [0xFF]).get 0 ≠ 0xFE ∧ (bytesOf 64 [0xFE, 0x61]).get 0 = 0xFE
    ∧ decodeRequest (bytesOf 64 [0xFE, 0x61]) = some .showGo ∧ acceptedIn .showGo (reading .night).xu.mode = true
    ∧ acceptedIn .showGo (reading .service).xu.mode = false ∧ decodeRequest (bytesOf 64 [0xFE, 0x65]) = none := by
  refine ⟨fun m => ⟨rfl, rfl, rfl, rfl⟩, ?_⟩
  decide

/-- R209: the parameters of an ANNOUNCE and of a STREAM_START, byte by byte. -/
theorem test_request_layout :
    decodeRequest (bytesOf 64 [0xFE, 0x20, 0, 0, 0, 0, 0, 0, 1, 0, 0, 0, 0, 0, 0, 0x80, 0x40, 0x30, 0, 0, 0, 0, 0, 0x20, 2, 0, 1,
        0, 3, 4, 5, 0, 6, 7, 0, 0]) =
        some (.announce ⟨0x8000000000000001, 0x2000000000003040, 0x10002, 3, 4, 0x706, 5⟩)
      ∧ decodeRequest (bytesOf 64 [0xFE, 0x51, 0, 0, 0, 0, 0, 0, 15, 63, 0x34, 0x12, 8, 7, 6, 5]) =
        some (.streamStart ⟨15, 63, 0x1234, 0x05060708⟩)
      ∧ bears [(8, 1, 15), (9, 1, 63), (10, 2, 0x1234), (12, 4, 0x05060708)]
        (bytesOf 64 [0xFE, 0x51, 0, 0, 0, 0, 0, 0, 15, 63, 0x34, 0x12, 8, 7, 6, 5]).toList := by
  unfold bears
  decide

theorem witness_LastWritesEndWhatTheyWrite :
    (∃ (k : SlotIx) (c : Completion), k = 63 ∧ c = .done .aborted (.announcement 1 2 3 4)
      ∧ (JobOutcome.aborted, (0x07 : Byte)) ∈ [(JobOutcome.ok, (0x00 : Byte)), (.played, 0x01), (.partly, 0x02),
        (.cancelled, 0x03), (.preempted, 0x04), (.expired, 0x05), (.filtered, 0x06), (.aborted, 0x07)])
    ∧ (∃ (c : Completion), c = .refused .bus 2
      ∧ (RefusalCode.bus, (0x17 : Byte)) ∈ [(RefusalCode.format, (0x10 : Byte)), (.mode, 0x11), (.align, 0x12),
        (.state, 0x13), (.full, 0x14), (.noTarget, 0x15), (.badList, 0x16), (.bus, 0x17)])
    ∧ (∃ (s : State) (k : SlotIx), s.inProgress = some (.state k)) ∧ (∃ s : State, s.inProgress = some .meterClose)
    ∧ ∀ r ∈ [Rewrite.writingOwed, .writing], ∃ (s : State) (p : StatusPage) (a : Addr) (size : Nat),
        s.inProgress = some (.pageClose p) ∧ s.xu.attach = .attached ∧ (s.xu.pages.get p.ix).rewrite = r
        ∧ (p, a, size) ∈ [(StatusPage.general, s.xu.base + 0x1100, 256), (.link, s.xu.base + 0x1200, 256),
          (.zone, s.xu.base + 0x1300, 2304), (.station, s.xu.base + 0x1C00, 1280), (.stream, s.xu.base + 0x2100, 768),
          (.show, s.xu.base + 0x2400, 256)] :=
  ⟨⟨63, _, rfl, rfl, by decide⟩, ⟨_, rfl, by decide⟩, ⟨doing (.state 63), 63, rfl⟩, ⟨doing .meterClose, rfl⟩,
    fun r _ => ⟨{ doing (.pageClose .show) with
        xu := { Xu.reset with attach := .attached, pages := Xu.reset.pages.set 5 ⟨r, 0⟩ } }, .show, _, 256, rfl, rfl, rfl,
      .tail _ (.tail _ (.tail _ (.tail _ (.tail _ (.head _)))))⟩⟩

/-- R211, section 11.8: the mode, the counts of held zones by line status and the show's state on the general page. -/
theorem test_general_page :
    let s : State :=
      { State.reset with
        xu := { Xu.reset with mode := .night }
        zm := { Zm.reset with zones := Zm.reset.zones.set 63 { ZoneRec.reset with holders := ⟨none, some .test, none, none⟩ } } }
    ((pageBytes s .general).drop 4).take 1 = [2] ∧ ((pageBytes s .general).drop 12).take 7 = [1, 0, 0, 0, 0, 1, 0] := by
  decide

theorem witness_MeterExpiryTakesAndClearsPeaks :
    (∃ s : State, s.xu.attach ≠ .attached) ∧ (∃ s : State, s.xu.meterInterval = 0)
    ∧ (∃ s : State, s.xu.attach = .attached ∧ s.xu.meterInterval ≠ 0 ∧ s.xu.meterWriting = true)
    ∧ ∃ s : State, s.xu.attach = .attached ∧ s.xu.meterInterval ≠ 0 ∧ s.xu.meterWriting = false :=
  ⟨⟨.reset, by decide⟩, ⟨.reset, rfl⟩,
    ⟨withXu fun x => { x with attach := .attached, meterInterval := 10, meterWriting := true }, by decide⟩,
    withXu fun x => { x with attach := .attached, meterInterval := 10 }, by decide⟩

theorem witness_ArbiterGrantsByClassThenAge :
    ∃ cls : Job → Nat,
      (∀ j, cls j =
        match j with
        | .block _ _ _ _ | .probe _ _ _ => 0
        | .clip _ _ _ => 1
        | .descriptor _ _ => 2
        | .taken _ | .results _ | .code _ | .state _ => 3
        | .pageOpen _ | .pageBody _ | .pageClose _ | .meterOpen | .meterBody | .meterClose => 4
        | .slotRead _ | .header | .patternList _ | .cueList => 5)
      ∧ (∃ (s : State) (before after : List Transfer) (x : Transfer), s.bus.current = none
        ∧ s.bus.waiting = before ++ x :: after ∧ (∀ y ∈ before, cls x.job < cls y.job)
        ∧ ∀ y ∈ after, cls x.job ≤ cls y.job)
      ∧ (∃ (s : State) (y : Transfer), s.bus.current = some y ∧ y.live = true ∧ y.job = .slotRead 63)
      ∧ (∃ (s : State) (y : Transfer), s.bus.current = some y ∧ y.live = true ∧ y.job = .taken 63)
      ∧ ∃ s : State, s.bus.current = none ∧ s.bus.waiting = [] :=
  ⟨_, fun _ => rfl,
    ⟨{ State.reset with
        bus := ⟨[readOf (.slotRead 0) 0 64, readOf (.probe 1 0 1) 0 16, readOf (.block 2 0 0 1) 0 192], none⟩ },
      [readOf (.slotRead 0) 0 64], [readOf (.block 2 0 0 1) 0 192], readOf (.probe 1 0 1) 0 16, rfl, rfl, by decide,
      by decide⟩,
    ⟨doing (.slotRead 63), _, rfl, rfl, rfl⟩, ⟨doing (.taken 63), _, rfl, rfl, rfl⟩, .reset, rfl, rfl⟩

theorem witness_EventsPostWhatTheyChange :
    ∀ a ∈ [Attach.detached, .attached], ∃ s t : State,
      (s.xu.attach = .attached → ∀ p, (s.xu.pages.get p).rewrite ≠ .dirty) ∧ s.xu.attach = a
      ∧ exec (.signalPresent .m3) s = .next t ∧ (s.xu.pages.get StatusPage.link.ix).rewrite = .clean
      ∧ (s.lp.rx.get 7).lock ≠ (t.lp.rx.get 7).lock ∧ (s.lp.rx.get 7).pass = (t.lp.rx.get 7).pass := by
  intro a ha
  fin_cases ha
  · exact ⟨.reset, _, by decide, rfl, rfl, by decide⟩
  · exact ⟨withXu fun x => { x with attach := .attached }, _, by decide, rfl, rfl, by decide⟩

/-! ## Witnesses: requests -/

theorem witness_SetModeChangesModeAndHandsOutParts :
    (∃ (s : State) (slot : SlotIx) (p : SetModeParams), s.xu.dispatch = some (slot, .setMode p) ∧ 3 < p.mode.toNat)
    ∧ ∀ a b : Mode, ∃ (s : State) (slot : SlotIx) (p : SetModeParams), s.xu.dispatch = some (slot, .setMode p)
        ∧ s.xu.mode = a ∧ b.code = p.mode.toNat := by
  refine ⟨⟨asking 63 (.setMode ⟨4⟩), 63, ⟨4⟩, by decide⟩, fun a b => ?_⟩
  exact ⟨withXu fun x => { x with mode := a, dispatch := some (0, .setMode ⟨BitVec.ofNat 8 b.code⟩) }, 0, _, rfl, rfl,
    by cases b <;> rfl⟩

theorem witness_ZoneSetWritesOneZone :
    (∃ (s : State) (slot : SlotIx) (p : ZoneSetParams), s.xu.dispatch = some (slot, .zoneSet p) ∧ s.net.xuToZm = []
      ∧ 63 < p.zone.toNat)
    ∧ ∃ (s : State) (slot : SlotIx) (p : ZoneSetParams) (z : Zone), s.xu.dispatch = some (slot, .zoneSet p)
        ∧ s.net.xuToZm = [] ∧ z.val = p.zone.toNat ∧ z = 63 ∧ p.slew = 0 ∧ p.threshold = 255 :=
  ⟨⟨asking 0 (.zoneSet ⟨64, 0, 0, 0, 0, 0, 0, 0, 0, 0⟩), 0, _, rfl, rfl, by decide⟩,
    asking 0 (.zoneSet ⟨63, 255, 65535, 0, 0, 0, 0, 0, 0, 255⟩), 0, _, 63, rfl, rfl, by decide⟩

theorem witness_ZoneFillAndZonesetDefine :
    (∃ (s : State) (slot : SlotIx) (p : ZoneFillParams), s.net.xuToZm = [] ∧ s.xu.dispatch = some (slot, .zoneFill p)
      ∧ 31 < p.set.toNat)
    ∧ (∃ (s : State) (slot : SlotIx) (p : ZoneFillParams) (k : SetIx), s.net.xuToZm = []
        ∧ s.xu.dispatch = some (slot, .zoneFill p) ∧ k.val = p.set.toNat ∧ 8 < p.selector.toNat)
    ∧ (∃ (s : State) (slot : SlotIx) (p : ZoneFillParams) (k : SetIx), s.net.xuToZm = []
        ∧ s.xu.dispatch = some (slot, .zoneFill p) ∧ k.val = p.set.toNat ∧ p.selector.toNat = 8
        ∧ inMask (s.zm.sets.get k).members 63 = true)
    ∧ (∃ (s : State) (slot : SlotIx) (p : ZonesetDefineParams), s.net.xuToZm = []
        ∧ s.xu.dispatch = some (slot, .zonesetDefine p) ∧ 31 < p.set.toNat)
    ∧ ∃ (s : State) (slot : SlotIx) (p : ZonesetDefineParams) (k : SetIx), s.net.xuToZm = []
        ∧ s.xu.dispatch = some (slot, .zonesetDefine p) ∧ k.val = p.set.toNat ∧ k = 31 :=
  ⟨⟨asking 0 (.zoneFill ⟨32, 0, 0⟩), 0, _, rfl, rfl, by decide⟩,
    ⟨asking 0 (.zoneFill ⟨31, 9, 0⟩), 0, _, 31, rfl, rfl, by decide⟩,
    ⟨asking 0 (.zoneFill ⟨0, 8, 0⟩), 0, _, 0, rfl, rfl, by decide⟩,
    ⟨asking 0 (.zonesetDefine ⟨32, 0, 0⟩), 0, _, rfl, rfl, by decide⟩,
    asking 0 (.zonesetDefine ⟨31, 1, 2⟩), 0, _, 31, rfl, rfl, by decide⟩

theorem witness_RouteSetWritesCrosspoints :
    (∃ (s : State) (slot : SlotIx) (p : RouteSetParams), s.xu.dispatch = some (slot, .routeSet p) ∧ s.net.xuToZm = []
      ∧ 15 < p.stream.toNat)
    ∧ (∃ (s : State) (slot : SlotIx) (p : RouteSetParams), s.xu.dispatch = some (slot, .routeSet p)
        ∧ s.net.xuToZm = [] ∧ p.stream.toNat ≤ 15 ∧ 31 < p.set.toNat)
    ∧ ∃ (s : State) (slot : SlotIx) (p : RouteSetParams) (c : Sys2Proof.Stream) (k : SetIx),
        s.xu.dispatch = some (slot, .routeSet p) ∧ s.net.xuToZm = [] ∧ c.val = p.stream.toNat ∧ k.val = p.set.toNat :=
  ⟨⟨asking 0 (.routeSet ⟨16, 0, 0⟩), 0, _, rfl, rfl, by decide⟩,
    ⟨asking 0 (.routeSet ⟨15, 32, 0⟩), 0, _, rfl, rfl, by decide⟩,
    asking 0 (.routeSet ⟨15, 31, 40000⟩), 0, _, 15, 31, rfl, rfl, by decide⟩

/-- An entry of the wait list that waits for slot `k`. -/
def entryOf (k : SlotIx) : Entry := ⟨.slot k, 1, 0, 0, 1, true, .partly, some 1⟩

theorem witness_AnnounceJoinsTheWaitList :
    (∃ (s : State) (slot : SlotIx) (p : AnnounceParams), s.xu.dispatch = some (slot, .announce p) ∧ s.au.exam = none
      ∧ s.net.xuToAu = [] ∧ p.mask = 0)
    ∧ (∃ (s : State) (slot : SlotIx) (p : AnnounceParams), s.xu.dispatch = some (slot, .announce p)
        ∧ s.au.exam = none ∧ s.net.xuToAu = [] ∧ p.mask ≠ 0 ∧ 1 < p.policy.toNat)
    ∧ (∃ (s : State) (slot : SlotIx) (p : AnnounceParams), s.xu.dispatch = some (slot, .announce p)
        ∧ s.au.exam = none ∧ s.net.xuToAu = [] ∧ p.mask ≠ 0 ∧ p.policy.toNat ≤ 1 ∧ p.clipAddr.toNat % 64 ≠ 0)
    ∧ (∃ (s : State) (slot : SlotIx) (p : AnnounceParams) (gone : ZoneMask), s.xu.dispatch = some (slot, .announce p)
        ∧ s.au.exam = none ∧ s.net.xuToAu = [] ∧ p.mask ≠ 0 ∧ p.policy.toNat ≤ 1 ∧ p.clipAddr.toNat % 64 = 0
        ∧ (∀ z, inMask gone z = true ↔ inMask p.mask z = true ∧ s.xu.mode = .night ∧ p.urgent = 0
          ∧ (s.zm.zones.get z).settings.flags.cabin = true ∧ (s.zm.zones.get z).settings.flags.nightPermit = false)
        ∧ p.mask &&& ~~~gone = 0)
    ∧ ∀ n ≤ 16, ∃ (s : State) (slot : SlotIx) (p : AnnounceParams) (gone : ZoneMask),
        s.xu.dispatch = some (slot, .announce p)
        ∧ s.au.exam = none ∧ s.net.xuToAu = [] ∧ p.mask ≠ 0 ∧ p.policy.toNat ≤ 1 ∧ p.clipAddr.toNat % 64 = 0
        ∧ (∀ z, inMask gone z = true ↔ inMask p.mask z = true ∧ s.xu.mode = .night ∧ p.urgent = 0
          ∧ (s.zm.zones.get z).settings.flags.cabin = true ∧ (s.zm.zones.get z).settings.flags.nightPermit = false)
        ∧ p.mask &&& ~~~gone ≠ 0 ∧ s.au.waitList.length = n := by
  refine ⟨⟨asking 0 (.announce ⟨0, 0, 0, 0, 0, 0, 0⟩), 0, _, rfl, by decide⟩,
    ⟨asking 0 (.announce ⟨1, 0, 0, 0, 2, 0, 0⟩), 0, _, rfl, by decide⟩,
    ⟨asking 0 (.announce ⟨1, 63, 0, 0, 1, 0, 0⟩), 0, _, rfl, by decide⟩, ?_, fun n _ => ?_⟩
  · refine ⟨{ asking 0 (.announce ⟨1, 64, 0, 0, 1, 0, 0⟩) with
      xu := { Xu.reset with mode := .night, dispatch := some (0, .announce ⟨1, 64, 0, 0, 1, 0, 0⟩) }
      zm := { Zm.reset with
        zones := Zm.reset.zones.set 0 { ZoneRec.reset with
          settings := { ZoneSettings.default with flags := ⟨true, true, false, false⟩ } } } }, 0, _, 1, rfl, ?_⟩
    decide
  · refine ⟨{ asking 0 (.announce ⟨1, 64, 0, 0, 1, 0, 0⟩) with
      au := { Au.reset with waitList := List.replicate n (entryOf 5) } }, 0, _, 0, rfl, rfl, rfl, by decide, by decide,
      by decide, fun z => ⟨fun h => absurd ((inMask_zero z).symm.trans h) Bool.false_ne_true, fun h => nomatch h.2.1⟩, by decide,
      by simp⟩

/-- A player in CLIP that plays slot `k`'s announcement. -/
def playerOf (k : SlotIx) : PlayerRec := { PlayerRec.reset with phase := .clip, origin := some (.slot k), clipLen := 1 }

theorem witness_AnnounceCancelEndsTheAnnouncement :
    (∃ (s : State) (slot : SlotIx) (p : AnnounceCancelParams), s.xu.dispatch = some (slot, .announceCancel p)
      ∧ s.au.exam = none ∧ s.net.xuToAu = [] ∧ 63 < p.slot.toNat)
    ∧ (∃ (s : State) (slot : SlotIx) (p : AnnounceCancelParams) (k : SlotIx) (before : List Entry) (e : Entry)
          (after : List Entry), s.xu.dispatch = some (slot, .announceCancel p) ∧ s.au.exam = none ∧ s.net.xuToAu = []
        ∧ k.val = p.slot.toNat ∧ s.au.waitList = before ++ e :: after ∧ e.origin = .slot k
        ∧ ∀ x ∈ before, x.origin ≠ .slot k)
    ∧ (∃ (s : State) (slot : SlotIx) (p : AnnounceCancelParams) (k : SlotIx) (q : Player) (r : PlayerRec),
        s.xu.dispatch = some (slot, .announceCancel p) ∧ s.au.exam = none ∧ s.net.xuToAu = [] ∧ k.val = p.slot.toNat
        ∧ (∀ e ∈ s.au.waitList, e.origin ≠ .slot k) ∧ r = s.au.players.get q ∧ r.phase ≠ .free
        ∧ r.origin = some (.slot k)
        ∧ ∀ i < q, (s.au.players.get i).phase = .free ∨ (s.au.players.get i).origin ≠ some (.slot k))
    ∧ ∃ (s : State) (slot : SlotIx) (p : AnnounceCancelParams) (k : SlotIx),
        s.xu.dispatch = some (slot, .announceCancel p) ∧ s.au.exam = none ∧ s.net.xuToAu = [] ∧ k.val = p.slot.toNat
        ∧ (∀ e ∈ s.au.waitList, e.origin ≠ .slot k)
        ∧ ∀ q, (s.au.players.get q).phase = .free ∨ (s.au.players.get q).origin ≠ some (.slot k) :=
  ⟨⟨asking 0 (.announceCancel ⟨64⟩), 0, _, rfl, by decide⟩,
    ⟨{ asking 0 (.announceCancel ⟨63⟩) with au := { Au.reset with waitList := [entryOf 4, entryOf 63] } }, 0, _, 63,
      [entryOf 4], entryOf 63, [], rfl, rfl, rfl, rfl, rfl, rfl, by decide⟩,
    ⟨{ asking 0 (.announceCancel ⟨63⟩) with au := { Au.reset with players := Au.reset.players.set 3 (playerOf 63) } }, 0, _,
      63, 3, playerOf 63, rfl, by decide⟩,
    asking 0 (.announceCancel ⟨63⟩), 0, _, 63, rfl, by decide⟩

/-- A station record standing at `v`. -/
def stationAt (v : Standing) : StationRec := { StationRec.reset with standing := v }

/-- The part with stations standing as listed, `s` otherwise. -/
def standing (s : State) (l : List (Station × Standing)) : State :=
  { s with ic := { s.ic with stations := l.foldl (fun t x => t.set x.1 (stationAt x.2)) s.ic.stations } }

/-- What station 63 is in, and what station 0 is in then, where both are in one conversation structure. -/
def together (n : Nat) : List (Standing × Standing) :=
  [(.calling 0, .ringing 63 n), (.ringing 0 n, .calling 63), (.talking 0, .talking 63), (.waiting 0 n, .group 7),
    (.group 7, .group 7), (.paging 7, .offline)]

/-- Stations 63 and 0 standing as given, station 5 waiting on 63, channel 7 carrying a page of 63, `s` otherwise. -/
def crowded (s : State) (v w : Standing) : State :=
  { s with
    ic :=
      { s.ic with
        stations := Table.build fun st =>
          if st = 63 then { stationAt v with waiting := [5], counter := some 9 } else if st = 0 then stationAt w
          else if st = 5 then stationAt (.waiting 63 8) else .reset
        channels := Ic.reset.channels.set 7 (some ⟨63, .live, 0, 1, .opened, 1, none⟩) } }

/-- Station 63 can leave each of them, a caller waiting. -/
theorem leaves_together (s : State) (n : Nat) (x : Standing × Standing) (hx : x ∈ together n)
    (h63 : (s.ic.stations.get 63).standing = x.1) (w63 : (s.ic.stations.get 63).waiting = [5])
    (h0 : (s.ic.stations.get 0).standing = x.2) (w0 : (s.ic.stations.get 0).waiting = [])
    (h5 : ∃ k, (s.ic.stations.get 5).standing = .waiting 63 k) (p : PageRec) (hp : s.ic.channels.get 7 = some p) :
    ∃ u, s.leaves u 63 := by
  have c63 : s.callersWait 63 := by simpa [State.callersWait, w63] using h5
  have c0 : s.callersWait 0 := by simp [State.callersWait, w0]
  have ne : (0 : Station) ≠ 63 := by decide
  simp only [together, List.mem_cons, List.not_mem_nil, or_false] at hx
  rcases hx with rfl | rfl | rfl | rfl | rfl | rfl
  · exact ⟨_, c63, .inl ⟨0, .quiet, ne, c0, .inl ⟨h63, ⟨n, h0⟩, rfl⟩, rfl⟩⟩
  · exact ⟨_, c63, .inl ⟨0, .noAnswer, ne, c0, .inr ⟨⟨n, h63⟩, h0, rfl⟩, rfl⟩⟩
  · exact ⟨_, c63, .inr (.inl ⟨0, ne, c0, h63, h0, rfl⟩)⟩
  · exact ⟨_, c63, .inr (.inr (.inl ⟨0, n, ne, h63, rfl⟩))⟩
  · exact ⟨_, c63, .inr (.inr (.inr (.inl ⟨7, h63, rfl⟩)))⟩
  · exact ⟨_, c63, .inr (.inr (.inr (.inr ⟨7, p, h63, hp, rfl⟩)))⟩

theorem leaves_crowded (s : State) (n : Nat) (x : Standing × Standing) (hx : x ∈ together n) :
    ∃ u, (crowded s x.1 x.2).leaves u 63 := by
  refine leaves_together _ n x hx ?_ ?_ ?_ ?_ ⟨8, ?_⟩ ⟨63, .live, 0, 1, .opened, 1, none⟩ ?_ <;> simp [crowded, stationAt, StationRec.reset]

theorem witness_StationSetAndIntercomConfig :
    (∃ (s : State) (slot : SlotIx) (p : IntercomConfigParams), s.ic.awaiting = none ∧ s.net.xuToIs = []
      ∧ s.xu.dispatch = some (slot, .intercomConfig p))
    ∧ (∃ (s : State) (slot : SlotIx) (p : StationSetParams), s.ic.awaiting = none ∧ s.net.xuToIs = []
        ∧ s.xu.dispatch = some (slot, .stationSet p) ∧ 63 < p.station.toNat)
    ∧ (∃ (s : State) (slot : SlotIx) (p : StationSetParams), s.ic.awaiting = none ∧ s.net.xuToIs = []
        ∧ s.xu.dispatch = some (slot, .stationSet p) ∧ p.station.toNat ≤ 63 ∧ 2 < p.authority.toNat)
    ∧ ∀ b : Bool, ∃ (s : State) (slot : SlotIx) (p : StationSetParams) (st : Station) (a : Authority) (r : StationRec)
          (g : Group), s.ic.awaiting = none ∧ s.net.xuToIs = [] ∧ s.xu.dispatch = some (slot, .stationSet p)
        ∧ st.val = p.station.toNat ∧ [Authority.crew, .officer, .bridge][p.authority.toNat]? = some a
        ∧ r =
            { s.ic.stations.get st with
              authority := a, groups := p.groups.setWidth 8, listen := min 32768 p.listen.toNat }
        ∧ r.standing = .group g ∧ r.groups.getLsbD g.val = b ∧ r.waiting = [5] ∧ s.callersWait st := by
  refine ⟨⟨asking 0 (.intercomConfig ⟨0, 300001, 600001⟩), 0, _, rfl, rfl, rfl⟩,
    ⟨asking 0 (.stationSet ⟨64, 0, 0, 0⟩), 0, _, rfl, rfl, rfl, by decide⟩,
    ⟨asking 0 (.stationSet ⟨63, 3, 0, 0⟩), 0, _, rfl, rfl, rfl, by decide⟩, fun b => ?_⟩
  refine ⟨crowded (asking 0 (.stationSet ⟨63, 2, if b then 0x80 else 0x7F, 0⟩)) (.group 7) .offline, 0, _, 63, .bridge, _, 7, rfl,
    rfl, rfl, rfl, rfl, rfl, ?_, ?_, ?_, ?_⟩
  · simp [crowded, stationAt]
  · cases b <;> rfl
  · simp [crowded]
  · simp [State.callersWait, crowded, stationAt]

theorem witness_CallConnectAndCallRelease :
    (∃ (s : State) (slot : SlotIx) (p : CallConnectParams), s.ic.awaiting = none ∧ s.net.xuToIs = []
      ∧ s.xu.dispatch = some (slot, .callConnect p) ∧ 63 < p.a.toNat)
    ∧ (∃ (s : State) (slot : SlotIx) (p : CallConnectParams), s.ic.awaiting = none ∧ s.net.xuToIs = []
        ∧ s.xu.dispatch = some (slot, .callConnect p) ∧ p.a.toNat ≤ 63 ∧ 63 < p.b.toNat)
    ∧ (∃ (s : State) (slot : SlotIx) (p : CallConnectParams), s.ic.awaiting = none ∧ s.net.xuToIs = []
        ∧ s.xu.dispatch = some (slot, .callConnect p) ∧ p.a.toNat ≤ 63 ∧ p.b = p.a)
    ∧ (∀ x y : Bool, ∃ (s : State) (slot : SlotIx) (p : CallConnectParams) (a b : Station), s.ic.awaiting = none
        ∧ s.net.xuToIs = [] ∧ s.xu.dispatch = some (slot, .callConnect p) ∧ a.val = p.a.toNat ∧ b.val = p.b.toNat ∧ a ≠ b
        ∧ (s.ic.stations.get a).standing.isIdle = x ∧ (s.ic.stations.get b).standing.isIdle = y)
    ∧ (∃ (s : State) (slot : SlotIx) (p : CallReleaseParams), s.ic.awaiting = none ∧ s.net.xuToIs = []
        ∧ s.xu.dispatch = some (slot, .callRelease p) ∧ 63 < p.station.toNat)
    ∧ (∃ (s : State) (slot : SlotIx) (p : CallReleaseParams) (a : Station), s.ic.awaiting = none ∧ s.net.xuToIs = []
        ∧ s.xu.dispatch = some (slot, .callRelease p) ∧ a.val = p.station.toNat
        ∧ (s.ic.stations.get a).standing = .offline)
    ∧ ∀ x ∈ together 1, ∃ (s u : State) (slot : SlotIx) (p : CallReleaseParams) (a : Station), s.ic.awaiting = none
        ∧ s.net.xuToIs = [] ∧ s.xu.dispatch = some (slot, .callRelease p) ∧ a.val = p.station.toNat
        ∧ (s.ic.stations.get a).standing = x.1 ∧ (s.ic.stations.get a).waiting = [5] ∧ s.leaves u a := by
  refine ⟨⟨asking 0 (.callConnect ⟨64, 0⟩), 0, _, rfl, rfl, rfl, by decide⟩,
    ⟨asking 0 (.callConnect ⟨63, 64⟩), 0, _, rfl, rfl, rfl, by decide⟩,
    ⟨asking 0 (.callConnect ⟨63, 63⟩), 0, _, rfl, rfl, rfl, by decide⟩, fun x y => ?_,
    ⟨asking 0 (.callRelease ⟨64⟩), 0, _, rfl, rfl, rfl, by decide⟩,
    ⟨asking 0 (.callRelease ⟨63⟩), 0, _, 63, rfl, rfl, rfl, by decide⟩,
    fun x hx => ?_⟩
  on_goal 2 =>
    obtain ⟨u, hu⟩ := leaves_crowded (asking 0 (.callRelease ⟨63⟩)) 1 x hx
    exact ⟨_, u, 0, _, 63, rfl, rfl, rfl, rfl, by simp [crowded, stationAt], by simp [crowded, stationAt], hu⟩
  refine ⟨standing (asking 0 (.callConnect ⟨63, 0⟩))
    [(63, if x then .idle .quiet else .offline), (0, if y then .idle .noAnswer else .group 1)], 0, _, 63, 0, rfl, rfl, rfl, ?_⟩
  cases x <;> cases y <;> decide

theorem witness_AlarmConfigAndAlarmTest :
    (∃ (s : State) (slot : SlotIx) (p : AlarmConfigParams), s.mau.awaiting = none
      ∧ s.xu.dispatch = some (slot, .alarmConfig p) ∧ s.mau.stage ≠ .idle)
    ∧ (∃ (s : State) (slot : SlotIx) (p : AlarmConfigParams), s.mau.awaiting = none
        ∧ s.xu.dispatch = some (slot, .alarmConfig p) ∧ s.mau.stage = .idle ∧ s.mau.test = none)
    ∧ (∃ (s : State) (slot : SlotIx) (p : AlarmTestParams), s.mau.awaiting = none
        ∧ s.xu.dispatch = some (slot, .alarmTest p) ∧ 2 < p.pattern.toNat)
    ∧ (∃ (s : State) (slot : SlotIx) (p : AlarmTestParams), s.mau.awaiting = none
        ∧ s.xu.dispatch = some (slot, .alarmTest p) ∧ p.pattern.toNat ≤ 2 ∧ 31 < p.set.toNat)
    ∧ (∃ (s : State) (slot : SlotIx) (p : AlarmTestParams) (i : PatIx) (k : SetIx), s.mau.awaiting = none
        ∧ s.xu.dispatch = some (slot, .alarmTest p) ∧ i.val = p.pattern.toNat ∧ i.val ≤ 2 ∧ k.val = p.set.toNat
        ∧ s.mau.test ≠ none)
    ∧ (∃ (s : State) (slot : SlotIx) (p : AlarmTestParams) (i : PatIx) (k : SetIx), s.mau.awaiting = none
        ∧ s.xu.dispatch = some (slot, .alarmTest p) ∧ i.val = p.pattern.toNat ∧ i.val ≤ 2 ∧ k.val = p.set.toNat
        ∧ s.mau.stage = .idle ∧ s.mau.test = none ∧ (s.zm.sets.get k).members = 0)
    ∧ ∃ (s : State) (slot : SlotIx) (p : AlarmTestParams) (i : PatIx) (k : SetIx), s.mau.awaiting = none
        ∧ s.xu.dispatch = some (slot, .alarmTest p) ∧ i.val = p.pattern.toNat ∧ i.val ≤ 2 ∧ k.val = p.set.toNat
        ∧ s.mau.stage = .idle ∧ s.mau.test = none ∧ (s.zm.sets.get k).members ≠ 0 :=
  ⟨⟨{ asking 0 (.alarmConfig ⟨1, 65535⟩) with mau := { Mau.reset with stage := .abandon } }, 0, _, rfl, rfl, by decide⟩,
    ⟨asking 0 (.alarmConfig ⟨1, 65535⟩), 0, _, rfl, rfl, rfl, rfl⟩,
    ⟨asking 0 (.alarmTest ⟨3, 0, 0⟩), 0, _, rfl, rfl, by decide⟩,
    ⟨asking 0 (.alarmTest ⟨2, 32, 0⟩), 0, _, rfl, rfl, by decide⟩,
    ⟨{ asking 0 (.alarmTest ⟨2, 31, 0⟩) with mau := { Mau.reset with test := some ⟨none, 0, 0, 1, 0⟩ } }, 0, _, 2, 31, rfl,
      rfl, by decide⟩,
    ⟨asking 0 (.alarmTest ⟨2, 31, 0⟩), 0, _, 2, 31, rfl, rfl, by decide⟩,
    asking 0 (.alarmTest ⟨2, 0, 600001⟩), 0, _, 2, 0, rfl, rfl, by decide⟩

/-! ## Witnesses: patterns, streams and the show

Hypotheses that only name a term (`u = …`, `r = s.su.channels.get c`) are met by that term, and are left out where the
state shown gives it. -/

/-- A pattern list of one step, frequency 0, duration 0. -/
def goodPattern : Table 272 Byte := bytesOf 272 [1, 255]

theorem witness_PatternLoadReadsAndStores :
    (∃ (s : State) (slot : SlotIx) (p : PatternLoadParams), s.mau.awaiting = none
      ∧ s.xu.dispatch = some (slot, .patternLoad p) ∧ 3 < p.slot.toNat)
    ∧ (∃ (s : State) (slot : SlotIx) (p : PatternLoadParams) (i : PatIx), s.mau.awaiting = none
        ∧ s.xu.dispatch = some (slot, .patternLoad p) ∧ i.val = p.slot.toNat ∧ p.list.toNat % 64 ≠ 0)
    ∧ (∀ b : Bool, ∃ (s : State) (slot : SlotIx) (p : PatternLoadParams) (i : PatIx), s.mau.awaiting = none
        ∧ s.xu.dispatch = some (slot, .patternLoad p) ∧ i.val = p.slot.toNat ∧ p.list.toNat % 64 = 0 ∧ i ≠ 3
        ∧ ((s.mau.stage ≠ .idle ∨ s.mau.test ≠ none) ↔ b = true))
    ∧ (∀ (b : Bool) (origin : Option SlotIx), ∃ (s : State) (l : PatternLoad), s.mau.awaiting = none
        ∧ s.inProgress = some (.patternList l.id) ∧ (s.mau.loads.find? fun x => decide (x.id = l.id)) = some l
        ∧ l.origin = origin ∧ l.slot = 3 ∧ ((∃ p, (s.au.players.get p).phase = .chime) ↔ b = true))
    ∧ (∀ s : State, ∃ used : PatIx → Prop, ∀ i, used i ↔
        if i = 3 then
          (∃ p, (s.au.players.get p).phase = .chime) ∨ ∃ c p, s.ic.channels.get c = some p ∧ p.phase = .chime
        else s.mau.stage ≠ .idle ∨ s.mau.test ≠ none)
    ∧ bears
        ([(0, 1, 1), (1, 1, 255)] ++ (List.range 16).flatMap fun i =>
          [(16 + 16 * i, 1, 0), (17 + 16 * i, 1, 0), (18 + 16 * i, 2, 0), (20 + 16 * i, 4, 0), (24 + 16 * i, 2, 0)])
        goodPattern.toList
    ∧ bears [(0, 1, 17)] (bytesOf 272 [17]).toList := by
  refine ⟨⟨asking 0 (.patternLoad ⟨4, 0⟩), 0, _, rfl, rfl, by decide⟩,
    ⟨asking 0 (.patternLoad ⟨3, 63⟩), 0, _, 3, rfl, rfl, by decide⟩, fun b => ?_, fun b origin => ?_,
    fun _ => ⟨_, fun _ => Iff.rfl⟩, by unfold bears; decide +kernel, by unfold bears; decide⟩
  · refine ⟨{ asking 0 (.patternLoad ⟨2, 64⟩) with
      mau := { Mau.reset with stage := if b then .abandon else .idle } }, 0, _, 2, rfl, rfl, rfl, rfl, by decide, ?_⟩
    cases b <;> decide
  · refine ⟨{ doing (.patternList 1) with
      mau := { Mau.reset with loads := [⟨0, none, 0, 0⟩, ⟨1, origin, 3, 64⟩] }
      au := { Au.reset with players := Table.fill 4 { PlayerRec.reset with phase := if b then .chime else .clip } } },
      ⟨1, origin, 3, 64⟩, rfl, rfl, rfl, rfl, rfl, ?_⟩
    cases b <;> simp

/-- R143, R210: a pattern list of one step, its level, frequency and duration clamped. -/
theorem test_pattern_layout :
    storedPattern (decodePatternList (bytesOf 272 [1, 255, 0, 0, 0, 0, 0, 0, 0, 0, 0, 0, 0, 0, 0, 0, 1, 1, 0xFF, 0xFF, 0, 0, 2, 0,
      0x11, 0x27])) = some ⟨255, [⟨.gap, .triangle, 80000, 32768, 10000⟩]⟩ := by decide

/-- The part asked `r`, channel 15 being `c`. -/
def askingChannel (r : Request) (c : Chan) : State :=
  { asking 0 r with su := { Su.reset with channels := Su.reset.channels.set 15 c } }

/-- A channel with a ring of 64 descriptors. -/
def ringed (cls : BedClass) (st : StreamState) : Chan := { Chan.reset with cls := cls, ring := some ⟨0, 64⟩, state := st }

theorem witness_StreamSetAndStreamStart :
    (∃ (s : State) (slot : SlotIx) (p : StreamSetParams), s.net.xuToSu = [] ∧ s.xu.dispatch = some (slot, .streamSet p)
      ∧ 15 < p.stream.toNat)
    ∧ (∃ (s : State) (slot : SlotIx) (p : StreamSetParams) (c : Sys2Proof.Stream), s.net.xuToSu = []
        ∧ s.xu.dispatch = some (slot, .streamSet p) ∧ c.val = p.stream.toNat ∧ 1 < p.cls.toNat)
    ∧ (∃ (s : State) (slot : SlotIx) (p : StreamSetParams) (c : Sys2Proof.Stream), s.net.xuToSu = []
        ∧ s.xu.dispatch = some (slot, .streamSet p) ∧ c.val = p.stream.toNat ∧ p.cls.toNat ≤ 1
        ∧ p.base.toNat % 64 ≠ 0)
    ∧ (∀ st ∈ [StreamState.running, .stopped, .fault], ∃ (s : State) (slot : SlotIx) (p : StreamSetParams)
        (c : Sys2Proof.Stream), s.net.xuToSu = [] ∧ s.xu.dispatch = some (slot, .streamSet p) ∧ c.val = p.stream.toNat
        ∧ p.cls = 1 ∧ p.base.toNat % 64 = 0 ∧ (s.su.channels.get c).state = st)
    ∧ (∃ (s : State) (slot : SlotIx) (p : StreamStartParams), s.net.xuToSu = []
        ∧ s.xu.dispatch = some (slot, .streamStart p) ∧ 15 < p.stream.toNat)
    ∧ (∀ r ∈ [ringed .show .stopped, Chan.reset, ringed .background .running], ∃ (s : State) (slot : SlotIx)
        (p : StreamStartParams) (c : Sys2Proof.Stream), s.net.xuToSu = [] ∧ s.xu.dispatch = some (slot, .streamStart p)
        ∧ c.val = p.stream.toNat ∧ s.su.channels.get c = r)
    ∧ ∀ i ∈ [(63 : BitVec 8), 64], ∃ (s : State) (slot : SlotIx) (p : StreamStartParams) (c : Sys2Proof.Stream) (g : Ring),
        s.net.xuToSu = [] ∧ s.xu.dispatch = some (slot, .streamStart p) ∧ c.val = p.stream.toNat
        ∧ (s.su.channels.get c).cls = .background ∧ (s.su.channels.get c).ring = some g
        ∧ (s.su.channels.get c).state = .fault ∧ p.index = i ∧ g.count = 64 := by
  refine ⟨⟨asking 0 (.streamSet ⟨16, 0, 0, 0⟩), 0, _, rfl, rfl, by decide⟩,
    ⟨asking 0 (.streamSet ⟨15, 2, 0, 0⟩), 0, _, 15, rfl, rfl, by decide⟩,
    ⟨asking 0 (.streamSet ⟨15, 1, 63, 0⟩), 0, _, 15, rfl, rfl, by decide⟩,
    fun st _ => ⟨askingChannel (.streamSet ⟨15, 1, 64, 65⟩) (ringed .show st), 0, _, 15, rfl, rfl, rfl, rfl, by decide, rfl⟩,
    ⟨asking 0 (.streamStart ⟨16, 0, 0, 0⟩), 0, _, rfl, rfl, by decide⟩,
    fun r _ => ⟨askingChannel (.streamStart ⟨15, 0, 0, 0⟩) r, 0, _, 15, rfl, rfl, rfl, rfl⟩,
    fun i _ => ⟨askingChannel (.streamStart ⟨15, i, 0, 0⟩) (ringed .background .fault), 0, _, 15, ⟨0, 64⟩, rfl, rfl, rfl, rfl, rfl,
      rfl, rfl, rfl⟩⟩

theorem witness_StreamStopAndStreamLevel :
    (∃ (s : State) (slot : SlotIx) (p : StreamStopParams), s.net.xuToSu = []
      ∧ s.xu.dispatch = some (slot, .streamStop p) ∧ 15 < p.stream.toNat)
    ∧ (∀ r ∈ [ringed .show .running, ringed .background .stopped, ringed .background .fault], ∃ (s : State) (slot : SlotIx)
        (p : StreamStopParams) (c : Sys2Proof.Stream), s.net.xuToSu = [] ∧ s.xu.dispatch = some (slot, .streamStop p)
        ∧ c.val = p.stream.toNat ∧ s.su.channels.get c = r)
    ∧ (∀ (current : Nat) (fade : BitVec 32) (b : Option Playing), ∃ (s : State) (slot : SlotIx) (p : StreamStopParams)
        (c : Sys2Proof.Stream) (g : Ring), s.net.xuToSu = [] ∧ s.xu.dispatch = some (slot, .streamStop p)
        ∧ c.val = p.stream.toNat ∧ (s.su.channels.get c).cls = .background ∧ (s.su.channels.get c).state = .running
        ∧ p.fade = fade ∧ (s.su.channels.get c).fader.current = current ∧ (s.su.channels.get c).playing = b
        ∧ (s.su.channels.get c).ring = some g)
    ∧ (∃ (s : State) (slot : SlotIx) (p : StreamLevelParams), s.net.xuToSu = []
        ∧ s.xu.dispatch = some (slot, .streamLevel p) ∧ 15 < p.stream.toNat)
    ∧ ∀ k : BedClass, ∃ (s : State) (slot : SlotIx) (p : StreamLevelParams) (c : Sys2Proof.Stream), s.net.xuToSu = []
        ∧ s.xu.dispatch = some (slot, .streamLevel p) ∧ c.val = p.stream.toNat ∧ (s.su.channels.get c).cls = k :=
  ⟨⟨asking 0 (.streamStop ⟨16, 0⟩), 0, _, rfl, rfl, by decide⟩,
    fun r _ => ⟨askingChannel (.streamStop ⟨15, 0⟩) r, 0, _, 15, rfl, rfl, rfl, rfl⟩,
    fun current fade b => ⟨askingChannel (.streamStop ⟨15, fade⟩)
      { ringed .background .running with fader := ⟨current, current, 0⟩, playing := b }, 0, _, 15, ⟨0, 64⟩, rfl, rfl, rfl, rfl,
      rfl, rfl, rfl, rfl, rfl⟩,
    ⟨asking 0 (.streamLevel ⟨16, 0, 0⟩), 0, _, rfl, rfl, by decide⟩,
    fun k => ⟨askingChannel (.streamLevel ⟨15, 65535, 60001⟩) (ringed k .stopped), 0, _, 15, rfl, rfl, rfl, rfl⟩⟩

theorem witness_FadesArriveWithinTheirLength :
    (∃ f : Fader, f.current = min 32768 65535) ∧ ∃ (f : Fader) (n t : Nat), n = min 60000 60001 ∧ t = min 32768 65535
      ∧ n ≠ 0 ∧ f.current ≠ t :=
  ⟨⟨⟨32768, 0, 0⟩, rfl⟩, ⟨0, 0, 0⟩, 60000, 32768, rfl, rfl, by decide⟩

/-- The part with a load in flight whose read is in progress, the show in state `w`. -/
def loading (l : ShowLoad) (w : ShowState) : State :=
  { doing .cueList with su := { Su.reset with load := some l, theShow := { Show.reset with state := w } } }

theorem witness_ShowLoadReadsTheCueList :
    (∀ list ∈ [(63 : Addr), 64], ∀ w ∈ [ShowState.running, .held .alarm, .empty], ∃ (s : State) (slot : SlotIx)
        (p : ShowLoadParams), s.net.xuToSu = [] ∧ s.xu.dispatch = some (slot, .showLoad p) ∧ p.list = list
        ∧ s.su.theShow.state = w ∧ s.su.load = none)
    ∧ (∃ (s : State) (slot : SlotIx) (p : ShowLoadParams), s.net.xuToSu = [] ∧ s.xu.dispatch = some (slot, .showLoad p)
        ∧ p.list.toNat % 64 = 0 ∧ s.su.load ≠ none)
    ∧ (∀ l w, (loading l w).inProgress = some .cueList ∧ (loading l w).su.load = some l)
    ∧ (∀ n ∈ [0, 1, 256, 257], ∃ b : Table 16 Byte, bears [(0, 2, n)] b.toList)
    ∧ (∀ number ∈ [7, 65535], ∀ trigger ∈ [0, 1, 2, 3], ∀ actions ∈ [0, 1, 4, 5], ∃ b : Table 16 Byte,
        bears [(0, 2, number), (2, 1, trigger), (3, 1, actions), (4, 4, 0x04030201)] b.toList)
    ∧ (∃ b : Table 16 Byte, (b.get 0).toNat % 16 = 6)
    ∧ (∃ b : Table 16 Byte, (b.get 0).toNat % 16 = 4 ∧ bears [(1, 1, 15), (2, 1, 31), (4, 2, 65535)] b.toList)
    ∧ ∃ b : Table 16 Byte, (b.get 0).toNat % 16 = 5 ∧ (b.get 0).getLsbD 6 = true ∧ (b.get 0).getLsbD 7 = true
        ∧ bears [(1, 1, 31), (2, 3, 0x030201), (5, 3, 0x060504), (8, 8, 64)] b.toList := by
  refine ⟨fun list _ w _ => ⟨{ asking 0 (.showLoad ⟨list⟩) with
      su := { Su.reset with theShow := { Show.reset with state := w } } }, 0, _, rfl, rfl, rfl, rfl, rfl⟩,
    ⟨{ asking 0 (.showLoad ⟨0⟩) with su := { Su.reset with load := some ⟨1, 0, none, [], none, 0, 0⟩ } }, 0, _, rfl, rfl,
      by decide⟩, fun _ _ => ⟨rfl, rfl⟩, ?_, ?_, ⟨bytesOf 16 [6], by decide⟩,
    ⟨bytesOf 16 [4, 15, 31, 0, 0xFF, 0xFF], by decide, by unfold bears; decide⟩,
    ⟨bytesOf 16 [0xC5, 31, 1, 2, 3, 4, 5, 6, 64], by decide, by decide, by decide, by unfold bears; decide⟩⟩
  · intro n hn
    refine ⟨bytesOf 16 [n % 256, n / 256], ?_⟩
    unfold bears
    revert n
    decide
  · intro number hn trigger ht actions ha
    refine ⟨bytesOf 16 [number % 256, number / 256, trigger, actions, 1, 2, 3, 4], ?_⟩
    unfold bears
    revert number trigger actions
    decide

/-- R168, R170, R210: an action of each kind that a load takes, and one it refuses for its channel's class. -/
theorem test_action_layout :
    (([[4, 15, 31, 0, 0xFF, 0xFF], [0xC5, 31, 1, 2, 3, 4, 5, 6, 64], [2, 15]].map fun l =>
        Su.reset.checkAction (decodeAction (bytesOf 16 l))) =
      [some (.route 15 31 65535), some (.clip 64 0x030201 31 true .partly 0x060504), none]) := by decide

/-- A show of two cues at its first. -/
def twoCues (st : ShowState) (trigger : Trigger) (clock : Nat) (firing : Bool) : Show :=
  { Show.reset with
    state := st, cues := [⟨1, trigger, [.streamStop 0 0]⟩, ⟨2, .go, [.streamStop 0 0]⟩], pointer := some 0, clock := clock
    firing := firing }

theorem witness_ShowGoAndCueFireFireCues :
    (∀ (stage : Stage) (st : ShowState), ∃ (s : State) (slot : SlotIx), s.xu.dispatch = some (slot, .showGo)
      ∧ s.net.xuToSu = [] ∧ s.mau.published = stage ∧ s.su.theShow.state = st
      ∧ ∃ i c, s.su.theShow.pointer = some i ∧ s.su.theShow.cues[i]? = some c)
    ∧ ∀ trigger ∈ [Trigger.at 1000, .follow 1000], ∃ (s : State) (i : Nat) (c : Cue), s.su.theShow.state = .running
        ∧ s.su.theShow.pointer = some i ∧ s.su.theShow.cues[i]? = some c ∧ c.trigger = trigger
        ∧ s.su.theShow.firing = true
        ∧ match c.trigger with
          | .go => False
          | .at n => n ≤ s.su.theShow.clock
          | .follow n => min 4294967295 (s.su.theShow.lastFire + n) ≤ s.su.theShow.clock := by
  refine ⟨fun stage st => ⟨{ asking 0 .showGo with
      mau := { Mau.reset with published := stage }
      su := { Su.reset with theShow := twoCues st .go 0 false } }, 0, rfl, rfl, rfl, rfl, 0, _, rfl, rfl⟩, ?_⟩
  intro trigger ht
  refine ⟨{ State.reset with su := { Su.reset with theShow := twoCues .running trigger 1000 true } }, 0, _, rfl, rfl, rfl,
    rfl, rfl, ?_⟩
  fin_cases ht <;> decide

theorem witness_CueActionsActOrAreDropped :
    (∀ r : Chan, ∃ (s : State) (c : Sys2Proof.Stream), s.su.channels.get c = r)
    ∧ (∃ (r : Chan) (g : Ring), r.cls = .show ∧ r.state = .stopped ∧ r.ring = some g ∧ 63 < g.count ∧ g.count ≤ 64)
    ∧ (∃ r : Chan, r.cls = .show ∧ r.state = .running ∧ r.fader.current ≠ 0)
    ∧ (∃ r : Chan, r.cls = .show ∧ r.state = .starved ∧ r.fader.current = 0 ∧ r.playing = none)
    ∧ (∃ (r : Chan) (b : Playing) (g : Ring), r.cls = .show ∧ r.state = .running ∧ r.playing = some b ∧ r.ring = some g
        ∧ b.index = 63 ∧ g.count = 64)
    ∧ (∀ m : Mode, ∃ (s : State) (k : SetIx), s.xu.mode = m ∧ (s.zm.sets.get k).members ≠ 0
        ∧ ∀ z, inMask 0 z = true ↔ inMask (s.zm.sets.get k).members z = true ∧ s.xu.mode = .night
          ∧ (s.zm.zones.get z).settings.flags.cabin = true ∧ (s.zm.zones.get z).settings.flags.nightPermit = false)
    ∧ ∀ n : Nat, ∃ s : State, s.au.waitList.length = n := by
  refine ⟨fun r => ⟨askingChannel .showGo r, 15, rfl⟩, ⟨ringed .show .stopped, ⟨0, 64⟩, by decide⟩,
    ⟨{ ringed .show .running with fader := ⟨1, 0, 0⟩ }, by decide⟩, ⟨ringed .show .starved, by decide⟩,
    ⟨{ ringed .show .running with playing := some ⟨63, 0, 1, true, 0, false⟩ }, ⟨63, 0, 1, true, 0, false⟩, ⟨0, 64⟩, by decide⟩,
    fun m => ?_,
    fun n => ⟨{ State.reset with au := { Au.reset with waitList := List.replicate n (entryOf 0) } }, by simp⟩⟩
  refine ⟨withXu fun x => { x with mode := m }, 0, rfl, (by decide : allZones ≠ 0), fun z => ⟨fun h => ?_, fun h => ?_⟩⟩
  · exact absurd ((inMask_zero z).symm.trans h) Bool.false_ne_true
  · have h3 := h.2.2.1
    simp [withXu, State.reset, Zm.reset, ZoneRec.reset, ZoneSettings.default] at h3

theorem witness_HoldsPauseAndResumeChannels :
    (∀ st : ShowState, ∃ (s : State) (slot : SlotIx), s.xu.dispatch = some (slot, .showHold) ∧ s.net.xuToSu = []
      ∧ s.su.theShow.state = st)
    ∧ (∃ (s : State) (n : Nat), s.net.alarmHolds = n + 1
        ∧ ∃ k m st, .claim (.alarm .stage) k m st ∈ s.net.mauToZm)
    ∧ (∀ st : ShowState, ∃ (s : State) (n : Nat), s.net.alarmHolds = n + 1
        ∧ (∀ k m st, .claim (.alarm .stage) k m st ∉ s.net.mauToZm) ∧ s.su.theShow.state = st)
    ∧ ∀ (st : ShowState) (stage : Stage), ∃ (s : State) (slot : SlotIx), s.xu.dispatch = some (slot, .showResume)
        ∧ s.net.xuToSu = [] ∧ s.mau.published = stage ∧ s.su.theShow.state = st :=
  ⟨fun st => ⟨{ asking 0 .showHold with su := { Su.reset with theShow := { Show.reset with state := st } } }, 0, rfl, rfl, rfl⟩,
    ⟨{ State.reset with
        net := { Net.reset with
          alarmHolds := 1, mauToZm := [.claim (.alarm .stage) (.zones allZones) .any (some .general)] } }, 0, rfl,
      .zones allZones, .any, some .general, by decide⟩,
    fun st => ⟨{ State.reset with
        su := { Su.reset with theShow := { Show.reset with state := st } }, net := { Net.reset with alarmHolds := 1 } }, 0, rfl,
      fun _ _ _ => by simp [Net.reset], rfl⟩,
    fun st stage => ⟨{ asking 0 .showResume with
        su := { Su.reset with theShow := { Show.reset with state := st } }
        mau := { Mau.reset with published := stage } }, 0, rfl, rfl, rfl, rfl⟩⟩

theorem witness_ShowStopAndTeardownStopChannels :
    (∀ (st : ShowState) (c : Chan), ∃ (s : State) (slot : SlotIx) (p : ShowStopParams),
      s.xu.dispatch = some (slot, .showStop p) ∧ s.net.xuToSu = [] ∧ s.su.theShow.state = st ∧ p.fade ≠ 0
        ∧ s.su.channels.get 15 = c)
    ∧ ∃ (s : State) (q : List XuPart), s.net.xuToSu = .teardown :: q :=
  ⟨fun st c => ⟨{ asking 0 (.showStop ⟨1⟩) with
      su := { Su.reset with theShow := { Show.reset with state := st }, channels := Su.reset.channels.set 15 c } }, 0, _, rfl,
      rfl, rfl, by decide, rfl⟩,
    { State.reset with net := { Net.reset with xuToSu := [.teardown, .jobReset] } }, [.jobReset], rfl⟩

/-! ## Witnesses: teardowns and job resets -/

theorem witness_TeardownsAndPreemptionEndWork :
    (∃ (s : State) (n : Nat), s.au.exam = none ∧ s.net.preemptions = n + 1
      ∧ ∃ k m st, .claim (.alarm .stage) k m st ∈ s.net.mauToZm)
    ∧ (∃ (s : State) (n : Nat) (p : Player) (k : SlotIx), s.au.exam = none ∧ s.net.preemptions = n + 1
        ∧ (∀ k m st, .claim (.alarm .stage) k m st ∉ s.net.mauToZm) ∧ (s.au.players.get p).phase ≠ .free
        ∧ (s.au.players.get p).origin = some (.slot k)
        ∧ ∀ q, q ≠ p → (s.au.players.get q).phase = .free ∨ (s.au.players.get q).origin ≠ some (.slot k))
    ∧ (∃ (s : State) (q : List XuPart) (e : Entry) (p : Player) (k : SlotIx), s.au.exam = none
        ∧ s.net.xuToAu = .teardown :: q ∧ e ∈ s.au.waitList ∧ e.origin = .slot 5 ∧ (s.au.players.get p).phase ≠ .free
        ∧ (s.au.players.get p).origin = some (.slot k) ∧ (∀ e ∈ s.au.waitList, e.origin ≠ .slot k)
        ∧ ∀ q, q ≠ p → (s.au.players.get q).phase = .free ∨ (s.au.players.get q).origin ≠ some (.slot k))
    ∧ (∃ (s : State) (q : List XuPart), s.ic.awaiting = none ∧ s.net.xuToIs = .teardown :: q)
    ∧ ∀ q ∈ [[], [XuPart.jobReset, .teardown]], ∃ s : State, s.au.exam = none ∧ s.net.xuToAu = .teardown :: q
        ∧ s.net.heldNotices = 2 :=
  ⟨⟨{ State.reset with
      net := { Net.reset with
        preemptions := 1, mauToZm := [.claim (.alarm .stage) (.zones allZones) .any (some .general)] } }, 0, rfl, rfl,
      .zones allZones, .any, some .general, by decide⟩,
    ⟨{ State.reset with
        au := { Au.reset with players := Au.reset.players.set 3 (playerOf 63) }, net := { Net.reset with preemptions := 1 } }, 0, 3,
      63, rfl, rfl, fun _ _ _ => by simp [Net.reset], by decide⟩,
    ⟨{ State.reset with
        au := { Au.reset with players := Au.reset.players.set 3 (playerOf 63), waitList := [entryOf 5] }
        net := { Net.reset with xuToAu := [.teardown] } }, [], entryOf 5, 3, 63, rfl, rfl, by decide⟩,
    ⟨{ State.reset with net := { Net.reset with xuToIs := [.teardown] } }, [], rfl, rfl⟩,
    fun q _ => ⟨{ State.reset with net := { Net.reset with xuToAu := .teardown :: q, heldNotices := 2 } }, rfl, rfl, rfl⟩⟩

theorem witness_JobResetsRestoreTheDefaults :
    (∃ (s : State) (q : List XuPart), s.au.exam = none ∧ s.net.xuToAu = .jobReset :: q)
    ∧ (∃ (s : State) (q : List XuPart), s.ic.awaiting = none ∧ s.net.xuToIs = .jobReset :: q)
    ∧ (∃ (s : State) (q : List XuPart) (l : ShowLoad), s.net.xuToSu = .jobReset :: q ∧ s.su.load = some l)
    ∧ (∃ (s : State) (q : List XuPart), s.net.xuToSu = .jobReset :: q ∧ s.su.load = none)
    ∧ (∃ unheard : Transfer → Transfer, ∀ x, unheard x =
        match x.job with
        | .cueList | .descriptor _ _ => { x with live := false }
        | _ => x)
    ∧ ∃ (s : State) (q : List ZmMsg), s.net.xuToZm = .jobReset :: q :=
  ⟨⟨{ State.reset with net := { Net.reset with xuToAu := [.jobReset] } }, [], rfl, rfl⟩,
    ⟨{ State.reset with net := { Net.reset with xuToIs := [.jobReset] } }, [], rfl, rfl⟩,
    ⟨{ loading ⟨1, 0, none, [], none, 0, 0⟩ .empty with net := { Net.reset with xuToSu := [.jobReset] } }, [], _, rfl, rfl⟩,
    ⟨{ State.reset with net := { Net.reset with xuToSu := [.jobReset] } }, [], rfl, rfl⟩,
    ⟨_, fun _ => rfl⟩,
    { State.reset with net := { Net.reset with xuToZm := [.jobReset] } }, [], rfl⟩

/-- SU's job reset drops the cue-list read that waits, and keeps a descriptor write to be made unheard (R201). -/
theorem test_job_reset_reads :
    (after (.jobReset .su)
      { State.reset with
        net := { Net.reset with xuToSu := [.jobReset] }
        bus := ⟨[⟨.cueList, 64, 16, [], true⟩, ⟨.descriptor 2 7, 32, 1, [0xF8], true⟩], some ⟨.cueList, 80, 16, [], true⟩⟩ }
      fun t => t.bus) =
      some ⟨[⟨.descriptor 2 7, 32, 1, [0xF8], false⟩], some ⟨.cueList, 80, 16, [], false⟩⟩ := by decide +kernel

/-! ## Witnesses: the mix, claims, targets, postings -/

theorem witness_MixPeriodStartMixesEveryZone :
    ∀ s : State, ∃ (rnd : Int → Nat → Int) (sat : Int → Int) (src : Source → Fin 48 → Int),
      (∀ x g, rnd x g = (x * g + 16384) / 32768) ∧ (∀ x, sat x = max (-8388608) (min 8388607 x))
      ∧ ∀ k i, src k i = if (s.zm.held.get k).fresh then (s.zm.held.get k).samples.get i else 0 :=
  fun _ => ⟨_, _, _, fun _ _ => rfl, fun _ => rfl, fun _ _ => rfl⟩

/-- The part with one message of unit `u` at ZM, zone 63 held as given. -/
def atZm (u : Block) (m : ZmMsg) (h : Holders) : State :=
  { State.reset with
    net := Net.reset.setToZm u [m]
    zm := { Zm.reset with zones := Zm.reset.zones.set 63 { ZoneRec.reset with holders := h } } }

theorem witness_ClaimsAndReleasesMoveHolders :
    (∀ (c : Claim) (k : Candidates) (manner : Manner) (stage : Option Stage) (h : Holders),
      (atZm .au (.claim c k manner stage) h).net.toZm .au = .claim c k manner stage :: []
        ∧ ((atZm .au (.claim c k manner stage) h).zm.zones.get 63).holders = h)
    ∧ (∀ m : ZoneMask, ∃ mask : ZoneMask, ∀ z, inMask mask z = true ↔ inMask m z = true)
    ∧ (∀ s : State, ∃ mask : ZoneMask, ∀ z, inMask mask z = true ↔ (s.zm.zones.get z).settings.flags.crew = true)
    ∧ (∀ (c : Claim) (m : ZoneMask) (h : Holders), (atZm .is (.release c m) h).net.toZm .is = .release c m :: [])
    ∧ (inMask allZones 63 = true
        ∧ ((atZm .is (.release (.live 7) allZones) ⟨none, none, some 7, some 3⟩).zm.zones.get 63).holders.live = some 7)
    ∧ (¬∃ z, inMask allZones z = true
        ∧ ((atZm .is (.release (.live 7) allZones) ⟨none, none, some 6, some 3⟩).zm.zones.get z).holders.live = some 7)
    ∧ ∀ parts : List XuPart, ∃ s : State, s.net.toZm .is = [.release (.live 7) allZones] ∧ s.net.xuToAu = parts
        ∧ (s.zm.zones.get 63).holders.live = some 7 := by
  refine ⟨fun c k manner stage h => ⟨rfl, rfl⟩, fun m => ⟨m, fun _ => Iff.rfl⟩, fun s => ⟨maskOf fun z =>
    (s.zm.zones.get z).settings.flags.crew, fun z => by simp⟩, fun c m h => rfl, by decide, by decide, fun parts => ?_⟩
  exact ⟨{ atZm .is (.release (.live 7) allZones) ⟨none, none, some 7, none⟩ with
    net := { Net.reset.setToZm .is [.release (.live 7) allZones] with xuToAu := parts } }, rfl, rfl, rfl⟩

theorem witness_TargetsAndOverrideFollowTheHolders :
    (∀ (w : ZoneSettings) (mode : Mode), ∃ cap : Nat → Nat,
      ∀ n, cap n = if mode = .night ∧ w.flags.cabin = true then min n w.nightCap else n)
    ∧ (∀ l : LineStatus, ∃ z : ZoneRec, z.line = l)
    ∧ ∀ n ∈ [1, 2, 3], 1 ≤ n ∧ n ≤ 3 :=
  ⟨fun _ _ => ⟨_, fun _ => rfl⟩, fun l => ⟨{ ZoneRec.reset with line := l }, rfl⟩, by decide⟩

/-- Section 1.4.1: EV and ALARM held, alarm level 32,768 × alarm duck 8,192. -/
theorem test_targets_ev_over_alarm :
    let z : ZoneRec := { ZoneRec.reset with holders := ⟨some 3, some .stage, none, some 1⟩ }
    (z.targets .normal false false, z.targets .normal true false) =
      ((⟨24576, 8192, 0, 0, 0, 0⟩ : Gains), (⟨24576, 0, 0, 0, 0, 0⟩ : Gains)) := by decide

theorem witness_PostingsAndLineReportsUpdateZm :
    (∀ v : StreamCopy, ∃ (s : State) (c : Sys2Proof.Stream) (q : List ZmMsg), s.net.suToZm = .streamClass c v.cls :: q
      ∧ v.running = false → v.running = (s.zm.streams.get c).running)
    ∧ (∀ b : Bool, ∃ (s : State) (c : Sys2Proof.Stream) (v : StreamCopy) (q : List ZmMsg),
        s.net.suToZm = .streamRunning c v.running :: q ∧ v.running = b ∧ v.cls = (s.zm.streams.get c).cls)
    ∧ (∀ m : ZmMsg, ∃ (s : State) (q : List ZmMsg), s.net.isToZm = m :: q)
    ∧ (∀ b : Bool, ∃ (s : State) (q : List ZmMsg), s.net.mauToZm = .silenced b :: q)
    ∧ (∃ (s : State) (q : List ZmMsg), s.net.xuToZm = .mode :: q)
    ∧ (∃ (s : State) (src : Source) (p : Period) (before after : List (Source × Period)),
        s.net.deliveries = before ++ (src, p) :: after ∧ ∀ d ∈ before, d.1 ≠ src)
    ∧ (∀ v : Table 16 LineStatus, ∃ (s : State) (q : List AmpMsg), s.net.ampToZm.get 3 = .report v :: q)
    ∧ ∃ (s : State) (q : List AmpMsg), s.net.ampToZm.get 0 = .passLoss :: q :=
  ⟨fun v => ⟨.reset, 15, [], fun h => h.2⟩,
    fun b => ⟨{ State.reset with net := { Net.reset with suToZm := [.streamRunning 15 b] } }, 15, ⟨.background, b⟩, [], rfl, rfl,
      rfl⟩,
    fun m => ⟨{ State.reset with net := { Net.reset with isToZm := [m] } }, [], rfl⟩,
    fun b => ⟨{ State.reset with net := { Net.reset with mauToZm := [.silenced b] } }, [], rfl⟩,
    ⟨{ State.reset with net := { Net.reset with xuToZm := [.mode] } }, [], rfl⟩,
    ⟨{ State.reset with net := { Net.reset with deliveries := [(.alarmTone, silence48), (.mic 63, silence48)] } }, .mic 63,
      silence48, [(.alarmTone, silence48)], [], rfl, by decide⟩,
    fun v => ⟨{ State.reset with net := { Net.reset with ampToZm := Net.reset.ampToZm.set 3 [.report v] } }, [], rfl⟩,
    { State.reset with net := { Net.reset with ampToZm := Net.reset.ampToZm.set 0 [.passLoss] } }, [], rfl⟩

/-! ## Witnesses: announcements -/

/-- The part with a wait list and player 3 as given, the other players playing. -/
def announcing (l : List Entry) (r : PlayerRec) : State :=
  { State.reset with
    au := { Au.reset with waitList := l, players := (Table.fill 4 (playerOf 9)).set 3 r } }

theorem witness_ExaminationClaimsAndStartsPlayers :
    (∃ (s : State) (n : Nat), s.net.releaseNotices = n + 1)
    ∧ (∃ s : State, s.au.exam = none ∧ s.au.examPending = true ∧ s.au.waitList = [])
    ∧ (∃ s : State, s.au.exam = none ∧ s.au.examPending = true ∧ s.au.waitList ≠ []
        ∧ ∀ p, (s.au.players.get p).phase ≠ .free)
    ∧ (∃ (s : State) (p : Player) (e : Entry) (rest : List Entry), s.au.exam = none ∧ s.au.examPending = true
        ∧ (s.au.players.get p).phase = .free ∧ (∀ i < p, (s.au.players.get i).phase ≠ .free)
        ∧ s.au.waitList = e :: rest ∧ p = 3)
    ∧ (∀ m ∈ [(0 : ZoneMask), allZones], ∃ (s : State) (before : List Entry) (e : Entry) (p : Player),
        s.au.exam = some ⟨before.length, p⟩ ∧ s.au.waitList = before ++ e :: [] ∧ s.net.zmToAu = some m
        ∧ before.length = 15)
    ∧ (∃ (s : State) (before after : List Entry) (e : Entry) (p : Player), s.au.exam = some ⟨before.length, p⟩
        ∧ s.au.waitList = before ++ e :: after ∧ after ≠ [] ∧ s.net.zmToAu = some allZones
        ∧ ∀ q, (s.au.players.get q).phase ≠ .free ∨ (allZones ≠ 0 ∧ q = p))
    ∧ (∃ (s : State) (before : List Entry) (e f : Entry) (rest : List Entry) (p q : Player),
        s.au.exam = some ⟨before.length, p⟩ ∧ s.au.waitList = before ++ e :: f :: rest ∧ s.net.zmToAu = some 0
        ∧ (s.au.players.get q).phase = .free ∧ ∀ i < q, (s.au.players.get i).phase ≠ .free)
    ∧ ∀ b : Bool, ∃ (s : State) (before : List Entry) (e f : Entry) (rest : List Entry) (p q : Player),
        s.au.exam = some ⟨before.length, p⟩ ∧ s.au.waitList = before ++ e :: f :: rest ∧ s.net.zmToAu = some allZones
        ∧ e.chime = b ∧ f.policy = .waitAll ∧ ¬((s.au.players.get q).phase ≠ .free ∨ allZones ≠ 0 ∧ q = p)
        ∧ ∀ i < q, (s.au.players.get i).phase ≠ .free ∨ allZones ≠ 0 ∧ i = p := by
  refine ⟨⟨{ State.reset with net := { Net.reset with releaseNotices := 1 } }, 0, rfl⟩,
    ⟨{ State.reset with au := { Au.reset with examPending := true } }, by decide⟩,
    ⟨{ State.reset with au := { (announcing [entryOf 1] (playerOf 1)).au with examPending := true } }, by decide⟩,
    ⟨{ State.reset with au := { (announcing [entryOf 1] .reset).au with examPending := true } }, 3, entryOf 1, [], by decide⟩,
    fun m _ => ⟨{ State.reset with
        au := { (announcing (List.replicate 16 (entryOf 1)) .reset).au with exam := some ⟨15, 3⟩ }
        net := { Net.reset with zmToAu := some m } }, List.replicate 15 (entryOf 1), entryOf 1, 3, rfl, rfl, rfl, rfl⟩,
    ⟨{ State.reset with
        au := { (announcing [entryOf 1, entryOf 2] .reset).au with exam := some ⟨0, 3⟩ }
        net := { Net.reset with zmToAu := some allZones } }, [], [entryOf 2], entryOf 1, 3, by decide⟩,
    ⟨{ State.reset with
        au := { (announcing [entryOf 1, entryOf 2] .reset).au with exam := some ⟨0, 3⟩ }
        net := { Net.reset with zmToAu := some 0 } }, [], entryOf 1, entryOf 2, [], 3, 3, by decide⟩, fun b => ?_⟩
  refine ⟨{ State.reset with
      au :=
        { Au.reset with
          waitList := [{ entryOf 1 with chime := b }, { entryOf 2 with policy := .waitAll }], exam := some ⟨0, 2⟩
          players := (Table.fill 4 (playerOf 9)).set 2 .reset |>.set 3 .reset }
      net := { Net.reset with zmToAu := some allZones } }, [], { entryOf 1 with chime := b },
    { entryOf 2 with policy := .waitAll }, [], 2, 3, rfl, rfl, rfl, rfl, rfl, ?_⟩
  cases b <;> decide

/-- Every player's turn at a period start is met. -/
theorem turns_somehow (r : PlayerRec) (p : Player) (store : PatternStore) (inter : ZoneMask) :
    ∃ w, r.turn p store inter w := by
  unfold PlayerRec.turn
  have phases : r.phase = .free ∨ r.phase = .chime ∨ r.phase = .clip := by cases r.phase <;> simp
  rcases phases with hp | hp | hp
  · exact ⟨_, fun _ => rfl, fun h => by simp [hp] at h, fun h => by simp [hp] at h⟩
  · rcases Option.eq_none_or_eq_some r.gen with hg | ⟨g, hg⟩
    · exact ⟨_, fun h => by simp [hp] at h, fun _ => ⟨fun _ => rfl, fun _ h => by simp [hg] at h⟩, fun h => by simp [hp] at h⟩
    · rcases Option.eq_none_or_eq_some (g.next store) with hn | ⟨g', hn⟩
      · refine ⟨⟨{ r with
            interrupted := inter, phase := .clip, gen := none, lead := true, mark0 := .requested
            mark1 := if 2 ≤ r.clipLen then .requested else .notRequested }, [(.player p, g.samples)], [],
            ⟨.clip p 0 r.startNumber, r.clipAddr, 192, [], true⟩
              :: (if 2 ≤ r.clipLen then [⟨.clip p 1 r.startNumber, r.clipAddr + 192, 192, [], true⟩] else []), none⟩,
          fun h => by simp [hp] at h, fun _ => ⟨fun h => by simp [hg] at h, fun g0 h0 => ?_⟩, fun h => by simp [hp] at h⟩
        obtain rfl : g = g0 := by simpa [hg] using h0
        exact ⟨fun _ h => by simp [hn] at h, fun _ => rfl⟩
      · refine ⟨⟨{ r with interrupted := inter, gen := some g' }, [(.player p, g.samples)], [], [], none⟩,
          fun h => by simp [hp] at h, fun _ => ⟨fun h => by simp [hg] at h, fun g0 h0 => ?_⟩, fun h => by simp [hp] at h⟩
        obtain rfl : g = g0 := by simpa [hg] using h0
        refine ⟨fun g2 h => ?_, fun h => by simp [hn] at h⟩
        obtain rfl : g' = g2 := by simpa [hn] using h
        rfl
  · rcases Bool.eq_false_or_eq_true r.lead with hl | hl
    · exact ⟨_, fun h => by simp [hp] at h, fun h => by simp [hp] at h,
        fun _ => ⟨fun _ => rfl, fun h => by simp [hl] at h, fun h => by simp [hl] at h⟩⟩
    · rcases Nat.lt_or_ge r.cursor r.clipLen with hc | hc
      · have only : ∃ (v : PlayerRec) (out : List (Source × Period)), ∀ v' out',
            ((∃ x, r.mark0 = .complete x ∧ out' = [(.player p, x)]
                ∧ v' =
                  { r with
                    interrupted := inter, cursor := r.cursor + 1, mark0 := r.mark1, played := r.played + 1
                    mark1 := if r.cursor + 2 < r.clipLen then .requested else .notRequested })
              ∨ (∀ x, r.mark0 ≠ .complete x) ∧ out' = []
                ∧ v' =
                  { r with
                    interrupted := inter, cursor := r.cursor + 1, mark0 := r.mark1, late := min 65535 (r.late + 1)
                    mark1 := if r.cursor + 2 < r.clipLen then .requested else .notRequested }) → v' = v ∧ out' = out := by
          by_cases hm : ∃ x, r.mark0 = .complete x
          · obtain ⟨x, hx⟩ := hm
            refine ⟨{ r with
                interrupted := inter, cursor := r.cursor + 1, mark0 := r.mark1, played := r.played + 1
                mark1 := if r.cursor + 2 < r.clipLen then .requested else .notRequested }, [(.player p, x)],
              fun v' out' h => ?_⟩
            rcases h with ⟨y, hy, ho, hv⟩ | ⟨no, _⟩
            · obtain rfl : x = y := by simpa [hx] using hy
              exact ⟨hv, ho⟩
            · exact absurd hx (no x)
          · refine ⟨{ r with
                interrupted := inter, cursor := r.cursor + 1, mark0 := r.mark1, late := min 65535 (r.late + 1)
                mark1 := if r.cursor + 2 < r.clipLen then .requested else .notRequested }, [], fun v' out' h => ?_⟩
            rcases h with ⟨y, hy, _⟩ | ⟨_, ho, hv⟩
            · exact absurd ⟨y, hy⟩ hm
            · exact ⟨hv, ho⟩
        obtain ⟨v, out, only⟩ := only
        by_cases hd : r.clipLen = r.cursor + 1
        · refine ⟨⟨{ v with phase := .free, gen := none }, out, [.release (.programmed p) r.admitted], [],
              some (.done (if r.admitted &&& ~~~inter = r.target ∧ r.filtered = 0 then .played else .partly)
                (.announcement r.admitted (r.admitted &&& ~~~inter) v.played v.late))⟩, fun h => by simp [hp] at h,
            fun h => by simp [hp] at h,
            fun _ => ⟨fun h => by simp [hl] at h, fun _ h => by omega, fun _ _ v' out' heard hh h => ?_⟩⟩
          obtain ⟨rfl, rfl⟩ := only v' out' h
          subst hh
          exact ⟨fun _ => by omega, fun _ => rfl⟩
        · refine ⟨⟨v, out, [],
              if r.cursor + 2 < r.clipLen then
                [⟨.clip p (r.cursor + 2) r.startNumber, r.clipAddr + BitVec.ofNat 64 (192 * (r.cursor + 2)), 192, [],
                  true⟩]
              else [], none⟩, fun h => by simp [hp] at h, fun h => by simp [hp] at h,
            fun _ => ⟨fun h => by simp [hl] at h, fun _ h => by omega, fun _ _ v' out' heard hh h => ?_⟩⟩
          obtain ⟨rfl, rfl⟩ := only v' out' h
          exact ⟨fun _ => rfl, fun h => absurd h hd⟩
      · exact ⟨_, fun h => by simp [hp] at h, fun h => by simp [hp] at h,
          fun _ => ⟨fun h => by simp [hl] at h, fun _ _ => rfl, fun _ h => by omega⟩⟩

theorem witness_AuPeriodStartPlaysAndExpires :
    (∀ (r : PlayerRec) (p : Player) (store : PatternStore) (inter : ZoneMask), ∃ w, r.turn p store inter w)
    ∧ (∀ r : PlayerRec, ∃ s : State, s.au.exam = none ∧ s.au.players.get 3 = r)
    ∧ (∀ s : State, ∃ inter : Player → ZoneMask, ∀ p z,
        inMask (inter p) z = true ↔ inMask (s.au.players.get p).interrupted z = true
          ∨ inMask (s.au.players.get p).admitted z = true ∧ (s.zm.zones.get z).target.prog = 0
            ∧ ((s.zm.zones.get z).holders.live ≠ none ∨ (s.zm.zones.get z).holders.alarm ≠ none
              ∨ (s.zm.zones.get z).holders.ev ≠ none ∨ s.xu.mode = .standby ∨ s.xu.mode = .service
              ∨ (s.zm.zones.get z).line = .short ∨ (s.zm.zones.get z).settings.announce = 0))
    ∧ (∃ g g' : Gen, g.next factoryStore = some g' ∧ g.left = 2)
    ∧ (∃ g : Gen, g.next factoryStore = none ∧ g.left = 1)
    ∧ (∃ r : PlayerRec, r.phase = .clip ∧ r.lead = false ∧ r.cursor + 1 < r.clipLen ∧ r.cursor + 2 = r.clipLen)
    ∧ (∀ n ∈ [0, 1], ∃ (s : State) (e : Entry), s.au.exam = none ∧ e ∈ s.au.waitList ∧ e.expiry = some n
        ∧ e.origin = .slot 63)
    ∧ (∃ ends : Option Origin → State → Completion → State,
        ∀ o v c, ends o v c = match o with | some (.slot k) => v.completed k c | _ => v)
    ∧ ∀ o : Origin, ∃ (s : State) (p : Player) (r : PlayerRec), s.au.exam = none ∧ r = s.au.players.get p
        ∧ r.phase = .clip ∧ r.lead = false ∧ r.cursor + 1 = r.clipLen ∧ r.origin = some o := by
  refine ⟨turns_somehow, fun r => ⟨announcing [] r, rfl, rfl⟩, fun s => ?_,
    ⟨⟨3, .bounded 1, 1, 2, .on, .triangle, 0, 0, 0⟩, _, rfl, rfl⟩, ⟨⟨3, .bounded 1, 1, 1, .on, .triangle, 0, 0, 0⟩, by decide⟩,
    ⟨{ playerOf 0 with clipLen := 2 }, by decide⟩,
    fun n _ => ⟨announcing [{ entryOf 63 with expiry := some n }] .reset, _, rfl, .head _, rfl, rfl⟩,
    ⟨_, fun _ _ _ => rfl⟩,
    fun o => ⟨announcing [] { playerOf 63 with origin := some o }, 3, _, rfl, rfl, rfl, rfl, rfl, rfl⟩⟩
  classical
  have key : ∀ P : Fin 64 → Prop, ∃ m : ZoneMask, ∀ z, inMask m z = true ↔ P z := fun P =>
    ⟨maskOf fun z => decide (P z), fun z => by rw [inMask_maskOf, decide_eq_true_iff]⟩
  exact ⟨fun p => Classical.choose (key _), fun p z => Classical.choose_spec (key _) z⟩

theorem witness_AnnouncementEventsEndAndFetch :
    (∃ ends : Option Origin → State → Completion → State,
      ∀ o v c, ends o v c = match o with | some (.slot k) => v.completed k c | _ => v)
    ∧ (∀ o : Origin, ∃ (s : State) (p : Player) (r : PlayerRec), s.au.exam = none ∧ r = s.au.players.get p ∧ r.phase = .clip
      ∧ r.clipLen ≤ r.cursor ∧ r.origin = some o)
    ∧ (∃ (s : State) (p : Player) (r : PlayerRec), s.au.exam = none ∧ r = s.au.players.get p ∧ r.phase = .chime
        ∧ r.gen = none)
    ∧ (∀ o : Origin, ∃ (s : State) (before after : List Entry) (e : Entry), s.au.exam = none
        ∧ s.au.waitList = before ++ e :: after ∧ e.expiry = some 0 ∧ (∀ x ∈ before ++ after, x.expiry ≠ some 0)
        ∧ e.origin = o)
    ∧ (∃ (s : State) (p : Player) (i start : Nat), s.au.exam = none ∧ s.inProgress = some (.clip p i start)
        ∧ start ≠ (s.au.players.get p).startNumber)
    ∧ ∀ (cursor i : Nat) (o : Origin), ∃ (s : State) (p : Player) (start : Nat) (r : PlayerRec), s.au.exam = none
        ∧ s.inProgress = some (.clip p i start) ∧ r = s.au.players.get p ∧ start = r.startNumber ∧ r.phase ≠ .free
        ∧ r.cursor = cursor ∧ r.origin = some o := by
  refine ⟨⟨_, fun _ _ _ => rfl⟩,
    fun o => ⟨announcing [] { playerOf 63 with cursor := 1, origin := some o }, 3, _, rfl, rfl, rfl, Nat.le_refl 1, rfl⟩,
    ⟨announcing [] { PlayerRec.reset with phase := .chime }, 3, _, rfl, rfl, by decide⟩,
    fun o => ⟨announcing [entryOf 0, { entryOf 1 with expiry := some 0, origin := o }] .reset, [entryOf 0], [],
      { entryOf 1 with expiry := some 0, origin := o }, rfl, rfl, rfl, by decide, rfl⟩,
    ⟨doing (.clip 3 0 1), 3, 0, 1, rfl, rfl, by decide⟩, fun cursor i o => ?_⟩
  exact ⟨{ doing (.clip 3 i 7) with
      au := (announcing [] { playerOf 63 with cursor := cursor, startNumber := 7, origin := some o }).au }, 3, 7, _,
    rfl, rfl, rfl, rfl, PlayerPhase.noConfusion, rfl, rfl⟩

/-! ## Witnesses: the intercom -/

/-- Station 63's word `w` waiting at IS with a counter it has not seen, in mode `m`, the stations standing as listed. -/
def spoken (m : Mode) (w : ControlWord) (l : List (Station × Standing)) : State :=
  let s := standing State.reset l
  { s with
    xu := { Xu.reset with mode := m }
    ic := { s.ic with
      stations := s.ic.stations.update fun _ r => { r with counter := some (w.counter + 1), authority := .bridge, groups := 0x80 } }
    net := { Net.reset with stationToIs := Net.reset.stationToIs.set 1 [.word 63 w] } }

theorem fresh_spoken (m : Mode) (w : ControlWord) (l : List (Station × Standing))
    (h : ((spoken m w l).ic.stations.get 63).standing ≠ .offline) : (spoken m w l).freshWord 63 w [] := by
  have ne : ∀ c : BitVec 4, c + 1 ≠ c := by decide
  exact ⟨rfl, h, rfl, w.counter + 1, by simp [spoken], ne _⟩

theorem witness_CallAnswerAndClearMoveStations :
    (∀ m : Mode, ∀ arg ∈ [(0 : BitVec 8), 63, 64], ∃ (s : State) (w : ControlWord) (n : IdleNotice), s.freshWord 63 w []
      ∧ w.event = 1 ∧ w.arg = arg ∧ (s.ic.stations.get 63).standing = .idle n ∧ s.xu.mode = m)
    ∧ (∃ (s : State) (w : ControlWord) (b : Station) (n : IdleNotice), s.freshWord 63 w [] ∧ w.event = 1
        ∧ s.xu.mode = .night ∧ b.val = w.arg.toNat ∧ b ≠ 63 ∧ (s.ic.stations.get b).standing = .idle n
        ∧ (s.ic.stations.get 63).standing = .idle .busyDenied)
    ∧ (∃ (s : State) (w : ControlWord) (b : Station), s.freshWord 63 w [] ∧ w.event = 1
        ∧ s.xu.mode = .night ∧ b.val = w.arg.toNat ∧ b ≠ 63 ∧ (s.ic.stations.get b).standing = .group 7
        ∧ (s.ic.stations.get b).waiting.length < 4 ∧ (s.ic.stations.get 63).standing = .idle .quiet)
    ∧ (∀ event ∈ [(1 : BitVec 4), 2, 3], ∀ arg : BitVec 8, ∃ (s : State) (w : ControlWord), s.freshWord 63 w []
        ∧ w.event = event ∧ w.arg = arg ∧ (s.ic.stations.get 63).standing = .ringing 0 1
        ∧ (s.ic.stations.get 0).standing = .calling 63 ∧ (s.ic.stations.get 63).waiting = []
        ∧ (s.ic.stations.get 0).waiting = [])
    ∧ ∀ x ∈ together 3, ∃ (s u : State) (w : ControlWord), s.freshWord 63 w [] ∧ w.event = 3
        ∧ (s.ic.stations.get 63).standing = x.1 ∧ (s.wordTaken 63 w []).leaves u 63 := by
  refine ⟨fun m arg _ => ⟨spoken m ⟨1, arg, 0⟩ [(63, .idle .quiet)], _, .quiet, fresh_spoken _ _ _ ?_, rfl, rfl, ?_, rfl⟩,
    ⟨spoken .night ⟨1, 0, 0⟩ [(63, .idle .busyDenied), (0, .idle .noAnswer)], _, 0, .noAnswer, fresh_spoken _ _ _ ?_, rfl, rfl,
      rfl, ?_⟩,
    ⟨spoken .night ⟨1, 0, 15⟩ [(63, .idle .quiet), (0, .group 7)], _, 0, fresh_spoken _ _ _ ?_, rfl, rfl, rfl, ?_⟩,
    fun e _ arg => ⟨spoken .normal ⟨e, arg, 3⟩ [(63, .ringing 0 1), (0, .calling 63)], _, fresh_spoken _ _ _ ?_, rfl, rfl, ?_⟩,
    fun x hx => ?clears⟩
  case clears =>
    have no : x.1 ≠ .offline := by
      simp only [together, List.mem_cons, List.not_mem_nil, or_false] at hx
      rcases hx with rfl | rfl | rfl | rfl | rfl | rfl <;> exact Standing.noConfusion
    let s : State :=
      { crowded .reset x.1 x.2 with net := { Net.reset with stationToIs := Net.reset.stationToIs.set 1 [.word 63 ⟨3, 0, 8⟩] } }
    have h63 : s.ic.stations.get 63 = { stationAt x.1 with waiting := [5], counter := some 9 } := by simp [s, crowded]
    have keep : ((s.wordTaken 63 ⟨3, 0, 8⟩ []).ic.stations.get 63).standing = x.1 := by
      simp only [State.wordTaken, Table.get_set_self, h63, stationAt]
      simp only [together, List.mem_cons, List.not_mem_nil, or_false] at hx
      rcases hx with rfl | rfl | rfl | rfl | rfl | rfl <;> rfl
    obtain ⟨u, hu⟩ := leaves_together (s.wordTaken 63 ⟨3, 0, 8⟩ []) 3 x hx keep (by simp [State.wordTaken, h63])
      (by simp [State.wordTaken, s, crowded, stationAt]) (by simp [State.wordTaken, s, crowded, stationAt, StationRec.reset])
      ⟨8, by simp [State.wordTaken, s, crowded, stationAt]⟩ ⟨63, .live, 0, 1, .opened, 1, none⟩
      (by simp [State.wordTaken, s, crowded])
    exact ⟨s, u, ⟨3, 0, 8⟩, ⟨rfl, by rw [h63]; exact no, rfl, 9, by rw [h63], by decide⟩, rfl, by rw [h63]; rfl, hu⟩
  all_goals simp [spoken, standing, stationAt, StationRec.reset, State.reset, Ic.reset]

theorem witness_StationEventsJoinPageAndKey :
    (∀ m : Mode, ∀ arg ∈ [(6 : BitVec 8), 7, 8], ∃ (s : State) (w : ControlWord), s.freshWord 63 w [] ∧ w.event = 4
      ∧ w.arg = arg ∧ (s.ic.stations.get 63).standing = .idle .quiet ∧ s.xu.mode = m
      ∧ (s.ic.stations.get 63).groups = 0x80)
    ∧ (∀ (emergency : Bool) (set : BitVec 7) (m : Mode), ∃ (s : State) (w : ControlWord), s.freshWord 63 w [] ∧ w.event = 5
        ∧ w.arg = BitVec.ofBool emergency ++ set ∧ (s.ic.stations.get 63).standing = .idle .quiet ∧ s.xu.mode = m
        ∧ (s.ic.stations.get 63).authority = .bridge ∧ s.mau.published = .idle ∧ s.ic.channels.get 0 = none)
    ∧ (∀ event : BitVec 4, ∃ (s : State) (w : ControlWord), s.freshWord 63 w [] ∧ w.event = event
        ∧ (s.ic.stations.get 63).standing = .group 7)
    ∧ (∃ (s : State) (w : ControlWord), s.ic.awaiting = none ∧ s.net.stationToIs.get (stationPort 63).ix = [.word 63 w]
        ∧ (s.ic.stations.get 63).standing ≠ .offline ∧ (s.ic.stations.get 63).counter = none)
    ∧ (∀ w : ControlWord, ∃ s : State, s.ic.awaiting = none ∧ s.net.stationToIs.get (stationPort 63).ix = [.word 63 w]
        ∧ (s.ic.stations.get 63).standing = .offline)
    ∧ ∀ arg : BitVec 8, ∃ (set : BitVec 7) (emergency : Bool), arg = BitVec.ofBool emergency ++ set := by
  refine ⟨fun m arg _ => ⟨spoken m ⟨4, arg, 0⟩ [(63, .idle .quiet)], _, fresh_spoken _ _ _ ?_, rfl, rfl, ?_⟩,
    fun e set m => ⟨spoken m ⟨5, BitVec.ofBool e ++ set, 0⟩ [(63, .idle .quiet)], _, fresh_spoken _ _ _ ?_, rfl, rfl, ?_⟩,
    fun e => ⟨spoken .normal ⟨e, 0, 0⟩ [(63, .group 7)], _, fresh_spoken _ _ _ ?_, rfl, ?_⟩,
    ⟨{ standing State.reset [(63, .idle .quiet)] with
        net := { Net.reset with stationToIs := Net.reset.stationToIs.set 1 [.word 63 ⟨1, 0, 0⟩] } }, _, rfl, rfl, by decide⟩,
    fun w => ⟨{ State.reset with net := { Net.reset with stationToIs := Net.reset.stationToIs.set 1 [.word 63 w] } },
      rfl, rfl, rfl⟩,
    fun arg => ⟨arg.setWidth 7, arg.msb, by revert arg; decide⟩⟩
  all_goals simp [spoken, standing, stationAt, State.reset, Ic.reset, Mau.reset]

theorem witness_AnswersAdmitPagesAndTests :
    (∀ (m : ZoneMask) (chime : Bool), ∃ (s : State) (w : PageWait), s.ic.awaiting = some w ∧ s.net.zmToIs = some m
      ∧ w.chime = chime ∧ (s.ic.stations.get w.station).standing = .idle .quiet)
    ∧ ∀ (m : ZoneMask) (a : MauAwait) (x : AlarmTest), ∃ s : State, s.mau.awaiting = some a ∧ s.net.zmToMau = some m
        ∧ s.mau.test = some x :=
  ⟨fun m chime => ⟨{ standing State.reset [(63, .idle .quiet)] with
      ic := { (standing State.reset [(63, .idle .quiet)]).ic with awaiting := some ⟨63, .live, 0, 7, chime⟩ }
      net := { Net.reset with zmToIs := some m } }, ⟨63, .live, 0, 7, chime⟩, rfl, rfl, rfl, rfl⟩,
    fun m a x => ⟨{ State.reset with
      mau := { Mau.reset with awaiting := some a, test := some x }, net := { Net.reset with zmToMau := some m } }, rfl, rfl, rfl⟩⟩

/-- A page of station 63 on channel 7. -/
def pageOf (phase : PagePhase) (left : Nat) (g : Option Gen) : PageRec := ⟨63, .live, 0, 1, phase, left, g⟩

/-- The stations standing as listed, channel 7 as given. -/
def paged (l : List (Station × Standing)) (p : Option PageRec) : State :=
  { State.reset with ic := { (standing State.reset l).ic with channels := Ic.reset.channels.set 7 p } }

/-- `s` with every timer of IS moved by one. -/
def elapsed (s : State) : State :=
  { s with
    ic :=
      { s.ic with
        stations :=
          s.ic.stations.update fun _ r =>
            { r with
              standing :=
                match r.standing with
                | .ringing a n => .ringing a (n - 1)
                | .waiting o n => .waiting o (n - 1)
                | v => v }
        channels := s.ic.channels.update fun _ p => p.map fun p => { p with left := p.left - 1 } } }

/-- A timer of station `st` has run out. -/
def isOut (e : State) (st : Station) : Prop :=
  (∃ a, (e.ic.stations.get st).standing = .ringing a 0) ∨ (∃ o, (e.ic.stations.get st).standing = .waiting o 0)
    ∨ ∃ c p, (e.ic.stations.get st).standing = .paging c ∧ e.ic.channels.get c = some p ∧ p.left = 0

/-- The pairs of standings in which station 63 has a timer that runs out at the next period start. -/
def runningOut : List (Standing × Standing) := [(.ringing 0 1, .calling 63), (.waiting 0 1, .group 7), (.paging 7, .offline)]

theorem elapsed_station (x : Standing × Standing) (hx : x ∈ runningOut) (st : Station) :
    ((elapsed (crowded .reset x.1 x.2)).ic.stations.get st).standing =
      if st = 63 then (match x.1 with | .ringing a n => .ringing a (n - 1) | .waiting o n => .waiting o (n - 1) | v => v)
      else if st = 0 then x.2 else if st = 5 then .waiting 63 7 else .offline := by
  simp only [runningOut, List.mem_cons, List.not_mem_nil, or_false] at hx
  rcases hx with rfl | rfl | rfl <;> simp only [elapsed, crowded, Table.get_update, Table.get_build] <;> split_ifs <;> rfl

theorem witness_IsTimersExpire :
    (∃ s : State, s.ic.awaiting = none ∧ s.ic.ringTimeout ≠ 0 ∧ (s.ic.stations.get 63).standing = .ringing 0 2
      ∧ ∀ st, ¬isOut (elapsed s) st)
    ∧ (∀ x ∈ runningOut, ∃ (s u : State), s.ic.awaiting = none ∧ s.ic.ringTimeout ≠ 0
        ∧ (∀ st c p, (s.ic.stations.get st).standing = .paging c → s.ic.channels.get c = some p → p.station = st)
        ∧ isOut (elapsed s) 63 ∧ (∀ st, isOut (elapsed s) st → st = 63)
        ∧ (s.ic.stations.get 63).standing = x.1
        ∧ ((∃ o, o ≠ 63 ∧ ((elapsed s).ic.stations.get 63).standing = .waiting o 0 ∧ (elapsed s).callersWait 63)
          ∨ (∀ o n, ((elapsed s).ic.stations.get 63).standing ≠ .waiting o n) ∧ (elapsed s).leaves u 63))
    ∧ (∃ s u : State, s.ic.awaiting = none ∧ (s.ic.stations.get 63).standing = .ringing 0 0 ∧ s.leaves u 63)
    ∧ (∃ (s : State) (st o : Station), s.ic.awaiting = none ∧ (s.ic.stations.get st).standing = .waiting o 0 ∧ o ≠ st
        ∧ s.callersWait st ∧ (s.ic.stations.get st).waiting = [5])
    ∧ (∃ (s u : State) (c : Channel) (p : PageRec), s.ic.awaiting = none ∧ s.ic.channels.get c = some p ∧ p.left = 0
        ∧ (s.ic.stations.get p.station).standing = .paging c ∧ s.leaves u p.station)
    ∧ ∃ (s : State) (c : Channel) (p : PageRec), s.ic.awaiting = none ∧ s.ic.channels.get c = some p ∧ p.phase = .chime
        ∧ p.gen = none := by
  refine ⟨⟨paged [(63, .ringing 0 2)] (some (pageOf .opened 2 none)), rfl, by decide, rfl, fun st => ?still⟩, fun x hx => ?runs,
    ?ring, ⟨crowded .reset (.waiting 0 0) (.group 7), 63, 0, rfl, by simp [crowded, stationAt], by decide, ?_, ?_⟩, ?limit,
    ⟨paged [(63, .paging 7)] (some (pageOf .chime 5 none)), 7, pageOf .chime 5 none, by decide⟩⟩
  case still =>
    by_cases h : st = 63
    · subst h
      simp [isOut, elapsed, paged, standing, stationAt]
    · simp [isOut, elapsed, paged, standing, h, State.reset, Ic.reset, StationRec.reset]
  case ring =>
    obtain ⟨u, hu⟩ := leaves_crowded .reset 0 (.ringing 0 0, .calling 63) (by simp [together])
    exact ⟨_, u, rfl, by simp [crowded, stationAt], hu⟩
  case limit =>
    let s : State := crowded .reset (.paging 7) .offline
    let v : State :=
      { s with ic := { s.ic with channels := Ic.reset.channels.set 7 (some ⟨63, .live, 0, 1, .opened, 0, none⟩) } }
    obtain ⟨u, hu⟩ := leaves_together v 0 (.paging 7, .offline) (by simp [together]) (by simp [v, s, crowded, stationAt])
      (by simp [v, s, crowded]) (by simp [v, s, crowded, stationAt]) (by simp [v, s, crowded, stationAt, StationRec.reset])
      ⟨8, by simp [v, s, crowded, stationAt]⟩ ⟨63, .live, 0, 1, .opened, 0, none⟩ (by simp [v])
    exact ⟨v, u, 7, ⟨63, .live, 0, 1, .opened, 0, none⟩, rfl, by simp [v], rfl, by simp [v, s, crowded, stationAt], hu⟩
  case runs =>
    have cw : (elapsed (crowded .reset x.1 x.2)).callersWait 63 := by
      simp [State.callersWait, elapsed, crowded, stationAt]
    have hp : (elapsed (crowded .reset x.1 x.2)).ic.channels.get 7 = some ⟨63, .live, 0, 1, .opened, 0, none⟩ := by
      simp [elapsed, crowded]
    have others : ∀ st, isOut (elapsed (crowded .reset x.1 x.2)) st → st = 63 := by
      intro st h
      by_contra ne
      simp only [isOut, elapsed_station x hx, ne, if_false] at h
      simp only [runningOut, List.mem_cons, List.not_mem_nil, or_false] at hx
      rcases hx with rfl | rfl | rfl <;> split_ifs at h <;> simp at h
    have pages : ∀ st c p, ((crowded .reset x.1 x.2).ic.stations.get st).standing = .paging c →
        (crowded .reset x.1 x.2).ic.channels.get c = some p → p.station = st := by
      intro st c p h h'
      simp only [crowded, Table.get_build] at h h'
      simp only [runningOut, List.mem_cons, List.not_mem_nil, or_false] at hx
      by_cases e : st = 63
      · by_cases k : c = 7
        · subst k
          simp only [Table.get_set_self, Option.some.injEq] at h'
          rw [← h', e]
        · simp [k, Ic.reset] at h'
      · simp only [e, if_false] at h
        rcases hx with rfl | rfl | rfl <;> split_ifs at h <;> simp [stationAt, StationRec.reset] at h
    have own : ((crowded .reset x.1 x.2).ic.stations.get 63).standing = x.1 := by simp [crowded, stationAt]
    have own' := elapsed_station x hx 63
    simp only [if_true] at own'
    have far := elapsed_station x hx 0
    have five := elapsed_station x hx 5
    have w63 : ((elapsed (crowded .reset x.1 x.2)).ic.stations.get 63).waiting = [5] := by simp [elapsed, crowded]
    have w0 : ((elapsed (crowded .reset x.1 x.2)).ic.stations.get 0).waiting = [] := by
      simp [elapsed, crowded, stationAt, StationRec.reset]
    simp only [runningOut, List.mem_cons, List.not_mem_nil, or_false] at hx
    rcases hx with rfl | rfl | rfl
    · obtain ⟨u, hu⟩ := leaves_together _ 0 (.ringing 0 0, .calling 63) (by simp [together]) own' w63 far w0 ⟨7, five⟩ _ hp
      exact ⟨_, u, rfl, by decide, pages, .inl ⟨0, own'⟩, others, own, .inr ⟨fun o n h => (by rw [own'] at h; cases h), hu⟩⟩
    · exact ⟨_, .reset, rfl, by decide, pages, .inr (.inl ⟨0, own'⟩), others, own, .inl ⟨0, by decide, own', cw⟩⟩
    · obtain ⟨u, hu⟩ := leaves_together _ 0 (.paging 7, .offline) (by simp [together]) own' w63 far w0 ⟨7, five⟩ _ hp
      exact ⟨_, u, rfl, by decide, pages, .inr (.inr ⟨7, _, own', hp, rfl⟩), others, own,
        .inr ⟨fun o n h => (by rw [own'] at h; cases h), hu⟩⟩
  · simp [State.callersWait, crowded, stationAt]
  · simp [crowded]

/-! ## Witnesses: ports of stations, the muster alarm -/

theorem reset_ic_sound : State.reset.ic.sound := by
  refine ⟨fun st => ⟨?_, ?_, ?_⟩, fun ch p h => ?_, fun w h => nomatch h⟩
  · simp [Ic.standingSound, State.reset, Ic.reset, StationRec.reset]
  · simp [Ic.listSound, State.reset, Ic.reset, StationRec.reset]
  · simp [Ic.onlineRight, State.reset, Ic.reset, StationRec.reset, Standing.online, PortCopy.reaches]
  · simp [State.reset, Ic.reset] at h

/-- Every station online, stations 0 and 63 in a call. -/
def inCall : Ic :=
  { Ic.reset with
    ports := Table.fill 2 ⟨true, 32⟩
    stations := Table.build fun st =>
      stationAt (if st = 0 then .talking 63 else if st = 63 then .talking 0 else .idle .quiet) }

theorem inCall_sound : inCall.sound := by
  have h : ∀ st : Station, (inCall.stations.get st).standing =
      if st = 0 then .talking 63 else if st = 63 then .talking 0 else .idle .quiet := fun st => by simp [inCall, stationAt]
  refine ⟨fun st => ⟨?_, ?_, ?_⟩, fun ch p h => ?_, fun w h => nomatch h⟩
  · by_cases h0 : st = 0
    · subst h0; simp [Ic.standingSound, h]
    by_cases h63 : st = 63
    · subst h63; simp [Ic.standingSound, h]
    · simp [Ic.standingSound, h0, h63, inCall, stationAt, StationRec.reset]
  · simp [Ic.listSound, inCall, stationAt, StationRec.reset]
  · have := st.isLt
    by_cases h0 : st = 0
    · subst h0; simp [Ic.onlineRight, inCall, stationAt, Standing.online, PortCopy.reaches, stationSlot]
    by_cases h63 : st = 63
    · subst h63; simp [Ic.onlineRight, inCall, stationAt, Standing.online, PortCopy.reaches, stationSlot]
    · simp [Ic.onlineRight, inCall, stationAt, Standing.online, PortCopy.reaches, stationSlot, h0, h63]
      omega
  · simp [inCall, Ic.reset] at h

theorem witness_PortConditionBringsStationsOnlineAndOffline :
    (∃ (s : State) (q : List IsMsg), s.ic.sound ∧ s.ic.awaiting = none
      ∧ s.net.stationToIs.get StationPort.s1.ix = .condition true 32 :: q ∧ (s.ic.stations.get 63).standing = .offline)
    ∧ (∃ (s : State) (q : List IsMsg), s.ic.sound ∧ s.ic.awaiting = none
      ∧ s.net.stationToIs.get StationPort.s1.ix = .condition false 32 :: q ∧ (s.ic.stations.get 63).standing = .talking 0
      ∧ (s.ic.stations.get 0).standing = .talking 63)
    ∧ ∀ (s : State) (p : StationPort) (pass : Bool) (count : Nat), ∃ (reached : Station → Bool) (old : Station → StationRec)
        (come gone : Station → Bool), (∀ st, reached st = (pass && decide (st.val % 32 < count)))
      ∧ (∀ st, old st = s.ic.stations.get st)
      ∧ (∀ st, come st = true ↔ st.val / 32 = p.ix.val ∧ (old st).standing = .offline ∧ reached st = true)
      ∧ ∀ st, gone st = true ↔ st.val / 32 = p.ix.val ∧ (old st).standing ≠ .offline ∧ reached st = false :=
  ⟨⟨{ State.reset with net := { Net.reset with stationToIs := Net.reset.stationToIs.set 1 [.condition true 32] } }, [],
      reset_ic_sound, rfl, rfl, rfl⟩,
    ⟨{ State.reset with
        ic := inCall, net := { Net.reset with stationToIs := Net.reset.stationToIs.set 1 [.condition false 32] } }, [],
      inCall_sound, rfl, rfl, rfl, rfl⟩,
    fun s p pass count => ⟨_, _,
      fun st => decide (st.val / 32 = p.ix.val ∧ (s.ic.stations.get st).standing = .offline
        ∧ (pass && decide (st.val % 32 < count)) = true),
      fun st => decide (st.val / 32 = p.ix.val ∧ (s.ic.stations.get st).standing ≠ .offline
        ∧ (pass && decide (st.val % 32 < count)) = false),
      fun _ => rfl, fun _ => rfl, fun _ => decide_eq_true_iff, fun _ => decide_eq_true_iff⟩⟩

/-- One message of a panel port at MAU, MAU as given. -/
def atMau (m : Mau) (p : PanelPort) (x : MauMsg) : State :=
  { State.reset with mau := m, net := { Net.reset with panelToMau := Net.reset.panelToMau.set p.ix [x] } }

theorem witness_PanelRoutesAndRunsMove :
    (∀ (m : Mau) (p : PanelPort) (x : MauMsg), m.awaiting = none → (atMau m p x).mau.awaiting = none
      ∧ (atMau m p x).net.panelToMau.get p.ix = x :: [])
    ∧ (∃ (m : Mau) (p : PanelPort) (b : Bool), m.awaiting = none ∧ p = m.active ∧ b = false ∧ m.passB = true ∧ p = .pa)
    ∧ (∃ (m : Mau) (p : PanelPort) (b : Bool), m.awaiting = none ∧ p ≠ m.active ∧ b = true ∧ m.passA = false ∧ p = .pb)
    ∧ (∃ (m : Mau) (p : PanelPort) (b : Bool), m.awaiting = none ∧ p ≠ m.active ∧ b = false ∧ p = .pa)
    ∧ (∃ (m : Mau) (p : PanelPort) (b : Bool), m.awaiting = none ∧ p = m.active ∧ b = true)
    ∧ (∃ (m : Mau) (n : Nat), m.awaiting = none ∧ m.active = .pb ∧ n = min m.r (m.revert + 1) ∧ n = m.r ∧ m.passA = true)
    ∧ (∃ (m : Mau) (n : Nat), m.awaiting = none ∧ m.active = .pb ∧ n = min m.r (m.revert + 1) ∧ n ≠ m.r)
    ∧ (∃ (m : Mau) (c : PanelCommand) (id : BitVec 8), m.awaiting = none ∧ m.run.candidate = some (c, id)
        ∧ m.run.spent = false ∧ m.run.count + 1 = m.k)
    ∧ ∃ (m : Mau) (c : PanelCommand) (id : BitVec 8), m.awaiting = none ∧ m.run.candidate = some (c, id)
        ∧ m.run.spent = true ∧ m.run.count = m.k := by
  refine ⟨fun m p x h => ⟨h, by simp [atMau]⟩, ⟨{ Mau.reset with passB := true }, .pa, false, by decide⟩,
    ⟨Mau.reset, .pb, true, by decide⟩, ⟨{ Mau.reset with active := .pb }, .pa, false, by decide⟩, ⟨Mau.reset, .pa, true, by decide⟩,
    ⟨{ Mau.reset with active := .pb, passA := true, revert := 999 }, 1000, by decide⟩,
    ⟨{ Mau.reset with active := .pb, passA := true, revert := 998 }, 999, by decide⟩,
    ⟨{ Mau.reset with run := ⟨some (.general, 255), 7, false⟩ }, .general, 255, by decide⟩,
    ⟨{ Mau.reset with run := ⟨some (.general, 255), 8, true⟩ }, .general, 255, by decide⟩⟩

/-- MAU with a run of `c` that has reached K, in a stage. -/
def confirmed (c : PanelCommand) (st : Stage) (silenced : Bool) (x : Option AlarmTest) : Mau :=
  { Mau.reset with run := ⟨some (c, 0), 8, false⟩, stage := st, published := st, silenced := silenced, test := x }

theorem witness_ConfirmedCommandsMoveTheStage :
    (∀ (c : PanelCommand) (st : Stage) (silenced : Bool) (x : Option AlarmTest), ∃ (s : State) (id : BitVec 8),
      s.mau.awaiting = none ∧ s.mau.run.count = s.mau.k ∧ s.mau.run.spent = false ∧ s.mau.run.candidate = some (c, id)
        ∧ s.mau.stage = st ∧ s.mau.silenced = silenced ∧ s.mau.test = x)
    ∧ Stage.general.rank ≤ Stage.general.rank ∧ Stage.alert.rank < Stage.general.rank
    ∧ (∃ x : AlarmTest, x.origin = none) ∧ ∃ (x : AlarmTest) (k : SlotIx), x.origin = some k :=
  ⟨fun c st b x => ⟨{ State.reset with mau := confirmed c st b x }, 0, rfl, rfl, rfl, rfl, rfl, rfl, rfl⟩, by decide, by decide,
    ⟨⟨none, 0, 0, 1, 0⟩, rfl⟩, ⟨some 63, 0, 0, 1, 0⟩, 63, rfl⟩

theorem witness_TonesAndTestsRunByPeriods :
    (∀ (g : Option Gen) (x : Option AlarmTest), ∃ s : State, s.mau.awaiting = none ∧ s.mau.gen = g ∧ s.mau.test = x)
    ∧ (∀ (left : Nat) (o : Option SlotIx), ∃ (x : AlarmTest) (ends : State → Completion → State), x.origin = o ∧ x.left = left
        ∧ ∀ v c, ends v c = match x.origin with | some k => v.completed k c | none => v)
    ∧ (∃ (store : PatternStore) (g : Gen) (i : Nat) (st : Step), (store.get g.slot).steps[i]? = some st)
    ∧ (∀ (left i : Nat) (r : Regime), ∃ g : Gen, g.left = left ∧ g.step = i ∧ g.regime = r ∧ g.slot = 3)
    ∧ (factoryStore.get 3).steps.length = 2 ∧ (factoryStore.get 3).repeats ≠ 0 ∧ (factoryStore.get 3).steps[0]? ≠ none
    ∧ (∃ store : PatternStore, (store.get 3).repeats = 0)
    ∧ (∃ (s : State) (g : Gen) (p : Player), g.left = 0 ∧ g.step + 1 = (s.mau.store.get g.slot).steps.length
        ∧ g.regime = .bounded 1 ∧ (s.au.players.get p).gen = some g)
    ∧ (∃ (s : State) (g : Gen), g.left = 0 ∧ g.step + 1 < (s.mau.store.get g.slot).steps.length ∧ s.mau.gen = some g)
    ∧ ∃ (s : State) (g : Gen) (c : Channel) (x : PageRec), g.left = 0
        ∧ g.step + 1 < (s.mau.store.get g.slot).steps.length ∧ s.ic.channels.get c = some x ∧ x.gen = some g := by
  refine ⟨fun g x => ⟨{ State.reset with mau := { Mau.reset with gen := g, test := x } }, rfl, rfl, rfl⟩,
    fun left o => ⟨⟨o, 2, 0, left, 0⟩, _, rfl, rfl, fun _ _ => rfl⟩, ⟨factoryStore, ⟨1, .endless, 0, 0, .gap, .square, 0, 0, 0⟩, 15, _, rfl⟩,
    fun left i r => ⟨⟨3, r, i, left, .on, .square, 0, 0, 0⟩, rfl, rfl, rfl, rfl⟩, by decide, by decide, by decide,
    ⟨factoryStore.set 3 { factoryStore.get 3 with repeats := 0 }, by simp⟩,
    ⟨announcing [] { playerOf 0 with gen := some ⟨3, .bounded 1, 1, 0, .on, .square, 0, 0, 0⟩ },
      ⟨3, .bounded 1, 1, 0, .on, .square, 0, 0, 0⟩, 3, by decide⟩,
    ⟨{ State.reset with mau := { Mau.reset with gen := some ⟨3, .bounded 1, 0, 0, .on, .square, 0, 0, 0⟩ } },
      ⟨3, .bounded 1, 0, 0, .on, .square, 0, 0, 0⟩, by decide⟩,
    ⟨paged [] (some (pageOf .chime 5 (some ⟨3, .bounded 1, 0, 0, .on, .square, 0, 0, 0⟩))),
      ⟨3, .bounded 1, 0, 0, .on, .square, 0, 0, 0⟩, 7, _, rfl, by decide, rfl, rfl⟩⟩

/-! ## Witnesses: channels -/

/-- Every channel's part of a period start is met. -/
theorem plays_somehow (r : Chan) (c : Sys2Proof.Stream) :
    ∃ mid out writes after reads, r.playsPeriod c mid out writes ∧ mid.looksAhead c after reads := by
  have looks (r : Chan) : ∃ after reads, r.looksAhead c after reads := by
    unfold Chan.looksAhead
    by_cases hs : r.state = .running ∨ r.state = .starved
    · by_cases h : r.ring ≠ none ∧ r.probe = none ∧ r.next = none ∧ ∀ b, r.playing = some b → b.last = false
      · obtain ⟨hg, hp, hn, hl⟩ := h
        obtain ⟨g, hg⟩ := Option.ne_none_iff_exists'.mp hg
        refine ⟨?_, ?_, fun a b => (hs.elim a b).elim, fun _ => ⟨fun g' w hg' _ _ _ hw => ?_, fun no => ?_⟩⟩
        · exact { r.requested with probe := some (if r.playing = none then r.cursor else r.following r.cursor) }
        · exact
            ⟨.probe c (if r.playing = none then r.cursor else r.following r.cursor) r.startNumber,
              g.base + BitVec.ofNat 64 (16 * if r.playing = none then r.cursor else r.following r.cursor), 16, [], true⟩
              :: r.requests c
        · obtain rfl := Option.some.inj (hg.symm.trans hg')
          subst hw
          exact ⟨rfl, rfl⟩
        · simp [hg, hp, hn] at no
          obtain ⟨b, hb, hb'⟩ := no
          simp [hl b hb] at hb'
      · refine ⟨r.requested, r.requests c, fun a b => (hs.elim a b).elim,
          fun _ => ⟨fun g w hg hp hn hl hw => ?_, fun _ => ⟨rfl, rfl⟩⟩⟩
        exact (h ⟨by simp [hg], hp, hn, hl⟩).elim
    · exact ⟨r, [], fun _ _ => ⟨rfl, rfl⟩, fun h => (hs h).elim⟩
  suffices h : ∃ mid out writes, r.playsPeriod c mid out writes by
    obtain ⟨mid, out, writes, h⟩ := h
    obtain ⟨after, reads, h'⟩ := looks mid
    exact ⟨mid, out, writes, after, reads, h, h'⟩
  unfold Chan.playsPeriod
  by_cases hp : ∃ k, r.state = .paused k
  · exact ⟨r, [], [], fun _ => ⟨rfl, rfl, rfl⟩, fun h => (hp.elim h).elim⟩
  by_cases hstop : r.fader.step ≠ 0 ∧ r.fader.faded.current = r.fader.target ∧ r.stopPending = true
  · refine ⟨({ r with fader := r.fader.faded } : Chan).stopped, [],
      match r.playing with | some b => r.marksDescriptor c b.index 0xF8 | none => [], fun h => (hp h).elim,
      fun _ d hd => ⟨fun _ _ _ => ?_, fun h => ?_⟩⟩
    · subst hd; exact ⟨rfl, rfl, rfl⟩
    · rcases h with h | h | h
      · exact (hstop.1 h).elim
      · exact (h hstop.2.1).elim
      · simp [hstop.2.2] at h
  by_cases hplay : r.state = .running ∨ r.state = .starved
  case neg =>
    refine ⟨{ r with fader := r.fader.faded }, [], [], fun h => (hp h).elim, fun _ d hd => ⟨fun a b e => (hstop ⟨a, b, e⟩).elim,
      fun _ => ⟨fun _ => ?_, fun h => (hplay h).elim⟩⟩⟩
    subst hd; exact ⟨rfl, rfl, rfl⟩
  have still : ¬(r.state = .stopped ∨ r.state = .fault) := by rcases hplay with h | h <;> simp [h]
  by_cases hb : r.playing = none
  · refine ⟨{ r with
      fader := r.fader.faded, starves := if r.state = .starved then min 65535 (r.starves + 1) else r.starves }, [], [],
      fun h => (hp h).elim, fun _ d hd => ⟨fun a b e => (hstop ⟨a, b, e⟩).elim,
      fun _ => ⟨fun h => (still h).elim, fun _ => ⟨fun _ => ?_, fun b h => ?_⟩⟩⟩⟩
    · subst hd; exact ⟨rfl, rfl, rfl⟩
    · simp [hb] at h
  obtain ⟨b, hb⟩ := Option.ne_none_iff_exists'.mp hb
  by_cases hl : b.lead = true
  · refine ⟨{ r with fader := r.fader.faded, playing := some { b with lead := false } }, [], [],
      fun h => (hp h).elim, fun _ d hd => ⟨fun a b e => (hstop ⟨a, b, e⟩).elim,
      fun _ => ⟨fun h => (still h).elim, fun _ => ⟨fun h => ?_, fun b' h => ?_⟩⟩⟩⟩
    · simp [hb] at h
    · obtain rfl := Option.some.inj (hb.symm.trans h)
      refine ⟨fun _ => ?_, fun h => ?_⟩
      · subst hd; exact ⟨rfl, rfl, rfl⟩
      · simp [hl] at h
  let e : Chan :=
    { r with
      fader := r.fader.faded
      lates := if r.samplesOf b.index b.period = none then min 65535 (r.lates + 1) else r.lates
      marks := r.marks.filter fun m => decide (m.index ≠ b.index ∨ m.period ≠ b.period) }
  have outs : ∃ out : List (Source × Period), match r.samplesOf b.index b.period with
      | none => out = []
      | some x => ∃ y : Period, out = [(Source.stream c, y)]
        ∧ ∀ i, y.get i = (x.get i * r.fader.faded.current + 16384) / 32768 := by
    cases r.samplesOf b.index b.period with
    | none => exact ⟨[], rfl⟩
    | some x =>
      exact ⟨_, Table.build fun i => (x.get i * r.fader.faded.current + 16384) / 32768, rfl, fun i => by simp⟩
  obtain ⟨out, ho⟩ := outs
  suffices h : ∃ (mid : Chan) (writes : List Transfer),
      (b.period + 1 < b.len → mid = { e with playing := some { b with period := b.period + 1 } } ∧ writes = [])
      ∧ (b.len ≤ b.period + 1 → b.last = true →
          mid = { e.stopped with cursor := r.cursor } ∧ writes = r.marksDescriptor c b.index 0xF8)
      ∧ (b.len ≤ b.period + 1 → b.last = false → r.next = none →
          mid = { e with state := .starved, playing := none, marks := [], cursor := r.following r.cursor }
          ∧ writes = r.marksDescriptor c b.index 0xF8)
      ∧ (b.len ≤ b.period + 1 → b.last = false → ∀ n, r.next = some n →
          mid =
            { e with
              playing := some ⟨n.index, n.addr, n.len, n.last, 0, false⟩, next := none
              marks := e.marks.filter fun m => decide (m.index = n.index), cursor := r.following r.cursor }
          ∧ writes = r.marksDescriptor c b.index 0xF8 ++ r.marksDescriptor c n.index 0xFC) by
    obtain ⟨mid, writes, h⟩ := h
    refine ⟨mid, out, writes, fun h => (hp h).elim, fun _ d hd => ⟨fun a b e => (hstop ⟨a, b, e⟩).elim,
      fun _ => ⟨fun h => (still h).elim, fun _ => ⟨fun h => ?_, fun b' h' => ?_⟩⟩⟩⟩
    · simp [hb] at h
    · obtain rfl := Option.some.inj (hb.symm.trans h')
      refine ⟨fun h => (hl h).elim, fun _ e' he => ?_⟩
      subst hd he
      exact ⟨ho, h⟩
  by_cases hend : b.period + 1 < b.len
  · exact ⟨_, _, fun _ => ⟨rfl, rfl⟩, fun h => by omega, fun h => by omega, fun h => by omega⟩
  by_cases hlast : b.last = true
  · exact ⟨_, _, fun h => (hend h).elim, fun _ _ => ⟨rfl, rfl⟩, fun _ h => by simp [hlast] at h,
      fun _ h => by simp [hlast] at h⟩
  by_cases hn : r.next = none
  · exact ⟨_, _, fun h => (hend h).elim, fun _ h => (hlast h).elim, fun _ _ _ => ⟨rfl, rfl⟩,
      fun _ _ n h => by simp [hn] at h⟩
  obtain ⟨n, hn'⟩ := Option.ne_none_iff_exists'.mp hn
  refine ⟨{ e with
      playing := some ⟨n.index, n.addr, n.len, n.last, 0, false⟩, next := none
      marks := e.marks.filter fun m => decide (m.index = n.index), cursor := r.following r.cursor },
    r.marksDescriptor c b.index 0xF8 ++ r.marksDescriptor c n.index 0xFC, fun h => (hend h).elim, fun _ h => (hlast h).elim,
    fun _ _ h => (hn h).elim, fun _ _ n' h => ?_⟩
  obtain rfl := Option.some.inj (hn'.symm.trans h)
  exact ⟨rfl, rfl⟩

theorem witness_SuPeriodStartPlaysEveryChannel :
    (∀ n ∈ [0, 1], ∃ (s : State) (clock : Nat) (mid after : Sys2Proof.Stream → Chan)
        (out : Sys2Proof.Stream → List (Source × Period)) (writes reads : Sys2Proof.Stream → List Transfer)
        (due : Show → Nat → Cue → Prop) (v : Nat → State), clock = min 4294967295 (s.su.theShow.clock + 1)
      ∧ s.su.theShow.state = .running
      ∧ (∀ c, (s.su.channels.get c).playsPeriod c (mid c) (out c) (writes c))
      ∧ (∀ c, (mid c).looksAhead c (after c) (reads c))
      ∧ (∀ x i c, due x i c ↔ x.state = .running ∧ x.pointer = some i ∧ x.cues[i]? = some c
        ∧ match c.trigger with
          | .go => False
          | .at k => k ≤ x.clock
          | .follow k => min 4294967295 (x.lastFire + k) ≤ x.clock)
      ∧ v 0 =
        { s with
          su :=
            { s.su with
              channels := Table.build after, theShow := { s.su.theShow with clock := clock, firing := true } }
          net :=
            { s.net with
              suToZm :=
                s.net.suToZm ++ (List.finRange 16).flatMap fun c =>
                  if (s.su.channels.get c).state = .running ∧ (mid c).state ≠ .running then
                    [.streamRunning c false]
                  else []
              deliveries := s.net.deliveries ++ (List.finRange 16).flatMap out }
          bus :=
            { s.bus with
              waiting := s.bus.waiting ++ (List.finRange 16).flatMap fun c => writes c ++ reads c } }
      ∧ (∀ k < n, ∃ (x : Show) (i : Nat) (c : Cue) (a : State), x = (v k).su.theShow ∧ due x i c
        ∧ a = c.actions.foldl (fun y action => y.act c.number action) (v k)
        ∧ v (k + 1) =
          { a with
            su :=
              { a.su with
                theShow :=
                  { x with
                    dropped := a.su.theShow.dropped, lastFire := x.clock
                    pointer := if i + 1 < x.cues.length then some (i + 1) else none
                    state := if i + 1 < x.cues.length then .running else .ended } } })
      ∧ ∀ i c, ¬due (v n).su.theShow i c)
    ∧ (∀ stop : Bool, ∃ (s : State) (c : Sys2Proof.Stream) (r : Chan), r = s.su.channels.get c ∧ r.fader.step ≠ 0
        ∧ r.fader.current = r.fader.target ∧ r.stopPending = stop ∧ r.state = .starved)
    ∧ ∀ (last : Bool) (next : Option NextBlock), ∃ (s : State) (c : Sys2Proof.Stream) (r : Chan) (b : Playing),
        r = s.su.channels.get c ∧ r.state = .running ∧ r.playing = some b ∧ b.len ≤ b.period ∧ b.last = last
        ∧ r.next = next ∧ r.ring = some ⟨0, 64⟩ := by
  refine ⟨fun n hn => ?_,
    fun stop => ⟨askingChannel .showGo { ringed .show .starved with fader := ⟨0, 0, 33⟩, stopPending := stop }, 15, _, rfl,
      Nat.succ_ne_zero 32, rfl, rfl, rfl⟩,
    fun last next => ⟨askingChannel .showGo { ringed .show .running with playing := some ⟨63, 0, 1, last, 1, false⟩, next := next },
      15, _, ⟨63, 0, 1, last, 1, false⟩, rfl, rfl, rfl, Nat.le_refl 1, rfl, rfl, rfl⟩⟩
  let s : State := { askingChannel .showGo { ringed .show .running with playing := some ⟨63, 0, 2, false, 0, false⟩ } with
    su := { (askingChannel .showGo { ringed .show .running with playing := some ⟨63, 0, 2, false, 0, false⟩ }).su with
      theShow := twoCues .running (.at (1001 - n)) 999 false } }
  choose mid out writes after reads h using fun c : Sys2Proof.Stream => plays_somehow (s.su.channels.get c) c
  let z : State :=
    { s with
      su := { s.su with channels := Table.build after, theShow := { s.su.theShow with clock := 1000, firing := true } }
      net :=
        { s.net with
          suToZm :=
            s.net.suToZm ++ (List.finRange 16).flatMap fun c =>
              if (s.su.channels.get c).state = .running ∧ (mid c).state ≠ .running then [.streamRunning c false] else []
          deliveries := s.net.deliveries ++ (List.finRange 16).flatMap out }
      bus := { s.bus with waiting := s.bus.waiting ++ (List.finRange 16).flatMap fun c => writes c ++ reads c } }
  let a := z.act 1 (.streamStop 0 0)
  let x := z.su.theShow
  refine ⟨s, 1000, mid, after, out, writes, reads, _,
    fun k => if k = 0 then z else
      { a with su := { a.su with theShow := { x with dropped := a.su.theShow.dropped, lastFire := 1000, pointer := some 1 } } },
    rfl, rfl, fun c => (h c).1, fun c => (h c).2, fun _ _ _ => Iff.rfl, rfl, fun k hk => ?_, fun i c hd => ?_⟩
  · simp only [List.mem_cons, List.not_mem_nil, or_false] at hn
    obtain rfl : n = 1 := by omega
    obtain rfl : k = 0 := by omega
    exact ⟨x, 0, ⟨1, .at 1000, [.streamStop 0 0]⟩, a, rfl, ⟨rfl, rfl, rfl, Nat.le_refl 1000⟩, rfl, rfl⟩
  · simp only [List.mem_cons, List.not_mem_nil, or_false] at hn
    rcases hn with rfl | rfl
    · obtain ⟨_, hp, hc, ht⟩ := hd
      obtain rfl : 0 = i := Option.some.inj hp
      obtain rfl : (⟨1, .at 1001, [.streamStop 0 0]⟩ : Cue) = c := Option.some.inj hc
      exact absurd (show 1001 ≤ 1000 from ht) (by decide)
    · obtain ⟨_, hp, hc, ht⟩ := hd
      obtain rfl : 1 = i := Option.some.inj hp
      obtain rfl : (⟨2, .go, [.streamStop 0 0]⟩ : Cue) = c := Option.some.inj hc
      exact ht

/-- A descriptor: FULL with LAST, length 0, block address 64. -/
def fullDescriptor : Table 16 Byte := bytesOf 16 [0xFE, 1, 0, 0, 0, 0, 0, 0, 64]

theorem witness_StreamCompletionsFillTheWindow :
    (∀ (r : Chan) (i start : Nat), ∃ (s : State) (c : Sys2Proof.Stream), s.inProgress = some (.probe c i start)
      ∧ r = s.su.channels.get c)
    ∧ (∀ st ∈ [StreamState.running, .starved, .paused .running, .paused .starved], ∃ (r : Chan) (g : Ring),
        r.ring = some g ∧ r.playing = none ∧ r.next = none ∧ r.state = st)
    ∧ (∃ d : Descriptor, bears [(0, 1, d.state.toNat), (1, 1, 1), (2, 2, d.length), (8, 8, d.block.toNat)]
        fullDescriptor.toList ∧ d.last = decide (1 % 2 = 1) ∧ d.state = 0xFE ∧ d.block.toNat % 64 = 0)
    ∧ (∃ (b : Table 16 Byte) (d : Descriptor),
        bears [(0, 1, d.state.toNat), (1, 1, 0), (2, 2, d.length), (8, 8, d.block.toNat)] b.toList ∧ d.state ≠ 0xFE)
    ∧ (∃ (b : Table 16 Byte) (d : Descriptor),
        bears [(0, 1, d.state.toNat), (1, 1, 0), (2, 2, d.length), (8, 8, d.block.toNat)] b.toList
        ∧ d.state = 0xFE ∧ d.block.toNat % 64 ≠ 0)
    ∧ (∃ (s : State) (c : Sys2Proof.Stream) (r : Chan) (i k start : Nat), s.inProgress = some (.block c i k start)
        ∧ r = s.su.channels.get c ∧ start = r.startNumber ∧ r.state ≠ .stopped ∧ r.state ≠ .fault
        ∧ ∃ m ∈ r.marks, m.index = i ∧ m.period = k)
    ∧ (∀ b : Table 192 Byte, ∃ x : Period, ∀ n : Fin 48,
        x.get n = max (-8388608) (min 8388607 (fieldBits b (4 * n.val) 4).toInt))
    ∧ ∀ start : Nat, ∃ (s : State) (c : Sys2Proof.Stream), s.inProgress = some (.descriptor c start)
        ∧ (s.su.channels.get c).startNumber = 7 ∧ (s.su.channels.get c).state = .running := by
  refine ⟨fun r i start => ⟨{ doing (.probe 15 i start) with su := (askingChannel .showGo r).su }, 15, rfl, rfl⟩,
    fun st _ => ⟨ringed .show st, ⟨0, 64⟩, rfl, rfl, rfl, rfl⟩,
    ⟨⟨0xFE, true, 0, 64⟩, by unfold bears; decide⟩, ⟨bytesOf 16 [0xFC], ⟨0xFC, false, 0, 0⟩, by unfold bears; decide⟩,
    ⟨bytesOf 16 [0xFE, 0, 0, 0, 0, 0, 0, 0, 63], ⟨0xFE, false, 0, 63⟩, by unfold bears; decide⟩,
    ⟨{ doing (.block 15 63 999 0) with
        su := (askingChannel .showGo { ringed .show .running with marks := [⟨63, 999, none⟩] }).su }, 15, _, 63, 999, 0, rfl, rfl,
      by decide⟩,
    fun b => ⟨Table.build fun n => max (-8388608) (min 8388607 (fieldBits b (4 * n.val) 4).toInt), fun n => by simp⟩,
    fun start => ⟨{ doing (.descriptor 15 start) with
      su := (askingChannel .showGo { ringed .show .running with startNumber := 7 }).su }, 15, rfl, rfl, rfl⟩⟩

/-! ## Witnesses: ports -/

/-- Port `i`'s receive record as given. -/
def withRx (i : Fin 8) (r : Rx) : State := { State.reset with lp := { Lp.reset with rx := Lp.reset.rx.set i r } }

theorem witness_ReceiversLockAndUnlock :
    (∀ (p : Port) (r : Rx), (withRx p.ix r).lp.rx.get p.ix = r)
    ∧ (∀ s : State, ∃ told : Bool → State → State, ∀ b v,
        (∀ k : StationPort, k.port = .m3 →
          told b v =
            { v with
              net :=
                { v.net with
                  stationToIs :=
                    v.net.stationToIs.set k.ix
                      (v.net.stationToIs.get k.ix ++ [.condition b (s.lp.slots.get k.ix).count]) } })
        ∧ (∀ k : PanelPort, k.port = .m3 →
            told b v =
              { v with
                net :=
                  { v.net with
                    panelToMau := v.net.panelToMau.set k.ix (v.net.panelToMau.get k.ix ++ [.pass b]) } })
        ∧ ∀ k : AmpPort, k.port = .m3 →
            told b v =
              if b then v
              else
                { v with
                  net :=
                    { v.net with ampToZm := v.net.ampToZm.set k.ix (v.net.ampToZm.get k.ix ++ [.passLoss]) } })
    ∧ (∃ r : Rx, r.lock = .locked ∧ r.missed = 2 ∧ r.pass = true)
    ∧ ∃ r : Rx, r.lock = .acquire ∧ r.pass = false ∧ r.acquired = 3 ∧ r.score = 16 := by
  refine ⟨fun p r => by simp [withRx], fun s => ⟨fun b v => if b then v else
    { v with net := { v.net with ampToZm := v.net.ampToZm.set 3 (v.net.ampToZm.get 3 ++ [.passLoss]) } }, fun b v => ⟨?_, ?_, ?_⟩⟩,
    ⟨{ Rx.reset with lock := .locked, missed := 2, pass := true }, by decide⟩,
    ⟨{ Rx.reset with lock := .acquire, acquired := 3, score := 16 }, by decide⟩⟩
  · intro k h; cases k <;> simp [StationPort.port] at h
  · intro k h; cases k <;> simp [PanelPort.port] at h
  · intro k h; cases k <;> simp [AmpPort.port] at h ⊢; rfl

theorem witness_FramesTakenAreScoredAndHandedOn :
    (∀ (p : Port) (r : Rx), (withRx p.ix r).lp.rx.get p.ix = r) ∧ (∃ r : Rx, r.lock = .locked)
    ∧ (∀ (good : Bool) (e sequence : BitVec 4), ∃ mark : Bool, mark = true ↔ good = true ∧ e ≠ sequence)
    ∧ (∀ (score : Nat) (was : Bool), ∃ pass : Bool, pass = true ↔ score ≤ 16 ∨ score < 64 ∧ was = true)
    ∧ (∀ (f : PanelFrame), f.command ∈ [(1 : BitVec 4), 2, 3, 4, 5, 6, 15] ∨ f.command ∉ [(1 : BitVec 4), 2, 3, 4, 5, 6, 15])
    ∧ (∃ sync : BitVec 16, sync ≠ 0xE4A7 ∧ sync ≠ 0xD31C ∧ sync ≠ 0xA96F)
    ∧ ∀ f : BackFrame, ∃ v : Table 16 LineStatus, ∀ i, (f.lines.get i, v.get i) ∈
        [((0 : BitVec 2), LineStatus.ok), (1, .opened), (2, .short), (3, .ampFault)] := by
  refine ⟨fun p r => by simp [withRx], ⟨{ Rx.reset with lock := .locked }, rfl⟩,
    fun good e q => ⟨good && decide (e ≠ q), by simp⟩,
    fun score was => ⟨decide (score ≤ 16 ∨ score < 64 ∧ was = true), by simp⟩, fun f => Classical.em _, ⟨0, by decide⟩, fun f => ?_⟩
  refine ⟨Table.build fun i =>
    if f.lines.get i = 0 then .ok else if f.lines.get i = 1 then .opened else if f.lines.get i = 2 then .short else .ampFault,
    fun i => ?_⟩
  rw [Table.get_build]
  have key : ∀ x : BitVec 2, (x, if x = 0 then LineStatus.ok else if x = 1 then .opened else if x = 2 then .short else .ampFault) ∈
      [((0 : BitVec 2), LineStatus.ok), (1, .opened), (2, .short), (3, .ampFault)] := by decide
  exact key _

theorem witness_TransmitsSendWhatStands :
    (∀ s : State, ∃ code : Station → BitVec 4, ∀ st, code st =
      match (s.ic.stations.get st).standing with
      | .offline | .idle .quiet => 0
      | .ringing _ _ => 1
      | .calling _ => 2
      | .waiting _ _ => 3
      | .idle .busyDenied => 4
      | .talking _ => 5
      | .group _ => 6
      | .paging ch =>
        match s.ic.channels.get ch with
        | some p => if p.phase = .chime then 7 else 8
        | none => (s.ic.indicator st).code
      | .idle .noAnswer => 9)
    ∧ (∃ (sound : Held → List Bool) (stale : Held → Held),
      (∀ h, sound h =
        if h.fresh then (List.finRange 48).flatMap fun j => bitsOf (BitVec.ofInt 24 (h.samples.get j))
        else List.replicate 1152 false)
      ∧ ∀ h, stale h = { h with fresh := false })
    ∧ ∀ s : State, ∃ stage : BitVec 2,
        (s.mau.published, stage) ∈ [(Stage.idle, 0), (.alert, 1), (.general, 2), (.abandon, 3)] := by
  refine ⟨fun _ => ⟨_, fun _ => rfl⟩, ⟨_, _, fun _ => rfl, fun _ => rfl⟩, fun s => ⟨BitVec.ofNat 2 s.mau.published.rank, ?_⟩⟩
  cases s.mau.published <;> decide

/-! ## Witnesses: invariants

A step of the empty queue from reset answers reset itself, and reset meets each invariant. -/

theorem reset_steps : step State.reset = .next State.reset := rfl

theorem witness_StepsKeepRecordsInRange :
    ∃ s t : State, (s.zm.inRange ∧ s.zm.overridesRight ∧ s.au.listBounded ∧ s.mau.storeInRange ∧ s.mau.routeSound
      ∧ s.mau.runSound) ∧ step s = .next t := by
  refine ⟨.reset, .reset, ⟨fun z => ?_, fun z => ?_, Nat.zero_le _, fun i => ?_, fun _ => rfl,
    by simp [Mau.runSound, State.reset, Mau.reset, Run.restarted]⟩, reset_steps⟩
  · simp [State.reset, Zm.reset, ZoneRec.reset, ZoneSettings.inRange, ZoneSettings.default, Gains.inRange, Gains.zero]
  · simp [State.reset, Zm.reset, ZoneRec.reset, overrideBit, Holders.empty, Holders.highest]
  · fin_cases i <;> simp [State.reset, Mau.reset, factoryStore, factoryPattern, Pattern.inRange, Step.inRange, Step.tone, Step.rest,
      List.replicate]

theorem witness_StepsKeepOneConversationStructure : ∃ s t : State, s.ic.sound ∧ step s = .next t :=
  ⟨.reset, .reset, reset_ic_sound, reset_steps⟩

theorem witness_StepsKeepTakenSlotsNamedOnce : ∃ s t : State, s.slotsSound ∧ step s = .next t := by
  refine ⟨.reset, .reset, ⟨fun i => ?_, fun i => ?_, ?_, fun i h => ?_, ?_, ?_⟩, reset_steps⟩
  · have e : State.reset.slotRefs = [] := by decide
    rw [e]
    simp [State.reset, Xu.reset, Shadow.isTaken]
  · simp [State.reset, Bus.reset, Bus.liveJobs]
  · simp [State.headerFits, State.reset, Bus.reset, Bus.liveJobs]
  · simp [State.reset, Xu.reset] at h
  · exact ⟨fun h => by simp [State.reset, Net.reset] at h, by simp [State.reset, Net.reset]⟩
  · exact ⟨fun x h => by simp [State.reset, Au.reset] at h, by simp [State.reset, Mau.reset], by simp [State.reset, Mau.reset]⟩

/-- GENERAL in force, every zone held for the stage. -/
def mustering : State :=
  { State.reset with
    mau := { Mau.reset with stage := .general, published := .general }
    zm := { Zm.reset with zones := Table.fill 64 { ZoneRec.reset with holders := ⟨none, some .stage, none, none⟩ } } }

theorem witness_StepsKeepTheMusterHeld :
    ∃ s t : State, s.alarmSound ∧ s.mau.published = .general ∧ step s = .next t := by
  refine ⟨mustering, mustering, ⟨?_, ?_, ?_, ?_⟩, rfl, rfl⟩
  · simp [Net.othersKeepOff, mustering, State.reset, Net.reset]
  · simp [State.claimInFlight, mustering, State.reset, Mau.reset, Net.reset]
  · simp [Mau.testAtIdle, mustering, Mau.reset]
  · simp [State.musterHeld, mustering, State.reset, Net.reset]

end Sys2Proof.Tests
end

/-! PROOFS. The statements of the scope of the model (spec/00_scope.md): XU's period start on an empty queue. -/

namespace Sys2Proof.Machine

/-! ## The end of an event reads little of the state before it -/

/-- Of the state before an event, its pages are compared on the blocks and on XU's mode and refusal count only. -/
theorem pageChanged_congr {a a' : State} (b : State) (p : StatusPage) (same : a.sameBlocks a')
    (mode : a'.xu.mode = a.xu.mode) (refusals : a'.xu.refusals = a.xu.refusals) :
    pageChanged a' b p = pageChanged a b p := by
  obtain ⟨-, zm, -, ic, mau, su, lp, -⟩ := same
  cases p with
  | general => simp only [pageChanged, generalChanged, mode, refusals, zm, mau, su]
  | link => simp only [pageChanged, linkChanged, lp]
  | zone => simp only [pageChanged, zoneChanged, zm]
  | station => simp only [pageChanged, stationChanged, ic]
  | stream => simp only [pageChanged, streamChanged, su]
  | _ => simp only [pageChanged, showChanged, su]

/-- The end of an event is the same from two states that differ only in what no page and no notice reports. -/
theorem settle_congr {a a' : State} (b : State) (same : a.sameBlocks a') (mode : a'.xu.mode = a.xu.mode)
    (refusals : a'.xu.refusals = a.xu.refusals) : settle a' b = settle a b := by
  have posts : postPages a' b = postPages a b := by
    funext x
    simp only [postPages, pageChanged_congr b _ same mode refusals]
  obtain ⟨-, -, -, -, mau, -, lp, -⟩ := same
  have link : linkNoticed a' b = linkNoticed a b := by simp only [linkNoticed, lp]
  have alarm : alarmNoticed a' b = alarmNoticed a b := by simp only [alarmNoticed, mau]
  simp only [settle, publish, noticesRaised, posts, link, alarm]

/-! ## The scan count (R212) -/

/-- A request for a pass moves the pass and its pending mark, and reads; XU keeps the rest, and so do the other blocks. -/
theorem requestPass_frame (s : State) :
    s.sameBlocks s.requestPass
      ∧ s.requestPass.xu =
        { s.xu with pass := s.requestPass.xu.pass, passPending := s.requestPass.xu.passPending } := by
  unfold State.requestPass
  split
  · exact ⟨⟨rfl, rfl, rfl, rfl, rfl, rfl, rfl, rfl⟩, rfl⟩
  · split
    · exact ⟨⟨rfl, rfl, rfl, rfl, rfl, rfl, rfl, rfl⟩, rfl⟩
    · exact ⟨(passedOn_beginPass s).same, (passedOn_beginPass s).xu⟩

/-- A scan count short of the interval only moves. -/
theorem scanTick_of_lt {s : State} (h : s.xu.scanCount + 1 < s.xu.scanInterval) :
    s.scanTick = s.modXu fun x => { x with scanCount := x.scanCount + 1 } :=
  if_neg (Nat.not_le.mpr h)

/-- A scan count that reaches the interval is an expiry, which starts it again. -/
theorem scanTick_of_le {s : State} (h : s.xu.scanInterval ≤ s.xu.scanCount + 1) : s.scanTick = s.scanExpiry :=
  if_pos h

/-- What the scan count's tick leaves as it was. -/
theorem scanTick_frame (s : State) :
    s.sameBlocks s.scanTick
      ∧ s.scanTick.xu =
        { s.xu with
          scanCount := s.scanTick.xu.scanCount, pass := s.scanTick.xu.pass
          passPending := s.scanTick.xu.passPending } := by
  rcases Nat.lt_or_ge (s.xu.scanCount + 1) s.xu.scanInterval with short | due
  · rw [scanTick_of_lt short]
    exact ⟨⟨rfl, rfl, rfl, rfl, rfl, rfl, rfl, rfl⟩, rfl⟩
  · rw [scanTick_of_le due]
    obtain ⟨same, xu⟩ := requestPass_frame (s.modXu fun x => { x with scanCount := 0 })
    exact ⟨same, by unfold State.scanExpiry; rw [xu, State.modXu_xu]⟩

section
variable (s : State)

theorem scanTick_attach : s.scanTick.xu.attach = s.xu.attach := by rw [(scanTick_frame s).2]
theorem scanTick_mode : s.scanTick.xu.mode = s.xu.mode := by rw [(scanTick_frame s).2]
theorem scanTick_refusals : s.scanTick.xu.refusals = s.xu.refusals := by rw [(scanTick_frame s).2]
theorem scanTick_meterInterval : s.scanTick.xu.meterInterval = s.xu.meterInterval := by rw [(scanTick_frame s).2]
theorem scanTick_meterCount : s.scanTick.xu.meterCount = s.xu.meterCount := by rw [(scanTick_frame s).2]

end

section
variable {s : State} (attached : s.xu.attach = .attached)
include attached

/-- A scan expiry during a pass sets the pending pass. -/
theorem scanExpiry_of_pass (h : s.xu.pass ≠ none) :
    s.scanExpiry = s.modXu fun x => { x with scanCount := 0, passPending := true } := by
  simp [State.scanExpiry, State.requestPass, attached, Option.isSome_iff_ne_none.mpr h, State.modXu]

/-- A scan expiry with no pass in progress begins one. -/
theorem scanExpiry_of_no_pass (h : s.xu.pass = none) :
    s.scanExpiry = (s.modXu fun x => { x with scanCount := 0 }).beginPass := by
  simp [State.scanExpiry, State.requestPass, attached, h]

/-- A pass that finds no slot to visit ends at once. -/
theorem scanExpiry_of_none_free (h : s.xu.pass = none) (full : ∀ k, s.xu.shadows.get k ≠ .free) :
    s.scanExpiry = s.modXu fun x => { x with scanCount := 0 } := by
  have none_free : s.xu.nextFree 0 = none := nextFree_eq_none fun j _ => full j
  have kept : { s.xu with pass := none, scanCount := 0 } = { s.xu with scanCount := 0 } := by rw [← h]
  rw [scanExpiry_of_no_pass attached h]
  unfold State.beginPass
  rw [show (s.modXu fun x => { x with scanCount := 0 }).xu.nextFree 0 = none from none_free]
  exact congrArg (fun x => { s with xu := x }) kept

/-- A pass that begins reads the first slot whose shadow is FREE. -/
theorem scanExpiry_of_first_free (h : s.xu.pass = none) {k : SlotIx} (free : s.xu.shadows.get k = .free)
    (first : ∀ i < k, s.xu.shadows.get i ≠ .free) :
    s.scanExpiry = (s.modXu fun x => { x with scanCount := 0 }).readSlot k := by
  have next : s.xu.nextFree 0 = some k := nextFree_eq_some (Nat.zero_le _) free fun i _ hi => first i hi
  rw [scanExpiry_of_no_pass attached h]
  unfold State.beginPass
  rw [show (s.modXu fun x => { x with scanCount := 0 }).xu.nextFree 0 = some k from next]

end

/-! ## The meter count (R217) -/

/-- A meter interval of 0 stands still, and a count short of its interval only moves. -/
def State.meterQuiet (s : State) : Prop := s.xu.meterInterval = 0 ∨ s.xu.meterCount + 1 < s.xu.meterInterval

/-- The meter count moved, that of an interval of 0 apart. -/
def State.meterCounted (s : State) : State :=
  s.modXu fun x => { x with meterCount := if x.meterInterval = 0 then x.meterCount else x.meterCount + 1 }

theorem sameBlocks_meterCounted (s : State) : s.sameBlocks s.meterCounted :=
  ⟨rfl, rfl, rfl, rfl, rfl, rfl, rfl, rfl⟩

theorem meterTick_of_quiet {s : State} (h : s.meterQuiet) : s.meterTick = s.meterCounted := by
  rcases h with off | short
  · simp only [State.meterTick, State.meterCounted, State.modXu, if_pos off]
  · have on : s.xu.meterInterval ≠ 0 := Nat.ne_zero_of_lt short
    simp [State.meterTick, State.meterCounted, State.modXu, on, Nat.not_le.mpr short]

/-- A meter count that reaches its interval is an expiry, which starts it again. -/
theorem meterTick_of_not_quiet {s : State} (h : ¬s.meterQuiet) : s.meterTick = s.meterExpiry := by
  obtain ⟨on, due⟩ := not_or.mp h
  unfold State.meterTick
  rw [if_neg on]
  exact if_pos (Nat.not_lt.mp due)

theorem scanTick_meterQuiet (s : State) : s.scanTick.meterQuiet ↔ s.meterQuiet := by
  simp only [State.meterQuiet, scanTick_meterInterval, scanTick_meterCount]

/-! ## Scan and meter counts do not read each other -/

theorem beginPass_meterCounted (s : State) : s.meterCounted.beginPass = s.beginPass.meterCounted := by
  unfold State.beginPass
  rw [show s.meterCounted.xu.nextFree 0 = s.xu.nextFree 0 from rfl]
  cases s.xu.nextFree 0 <;> rfl

theorem requestPass_meterCounted (s : State) : s.meterCounted.requestPass = s.requestPass.meterCounted := by
  unfold State.requestPass
  rw [apply_ite State.meterCounted, apply_ite State.meterCounted, beginPass_meterCounted]
  rfl

theorem scanExpiry_meterCounted (s : State) : s.meterCounted.scanExpiry = s.scanExpiry.meterCounted :=
  requestPass_meterCounted (s.modXu fun x => { x with scanCount := 0 })

/-! ## The period start -/

theorem step_of_empty {s : State} (h : s.pending = []) : step s = xuPeriodStart s := by
  rw [step, h]

theorem xuPeriodStart_of_not_attached {s : State} (h : s.xu.attach ≠ .attached) : xuPeriodStart s = .next s := by
  rw [xuPeriodStart, decide_eq_false h, event_not_due]

theorem xuPeriodStart_of_attached {s : State} (h : s.xu.attach = .attached) :
    xuPeriodStart s = settle s s.scanTick.meterTick := by
  rw [xuPeriodStart, decide_eq_true h]
  rfl

theorem exec_scanIntervalExpiry_of_attached {s : State} (h : s.xu.attach = .attached) :
    exec .scanIntervalExpiry s = settle s s.scanExpiry := by
  change event (decide (s.xu.attach = .attached)) s State.scanExpiry = _
  rw [decide_eq_true h]
  rfl

theorem exec_meterIntervalExpiry_of_attached {s : State} (h : s.xu.attach = .attached)
    (on : s.xu.meterInterval ≠ 0) : exec .meterIntervalExpiry s = settle s s.meterExpiry := by
  change event (decide (s.xu.attach = .attached) && decide (s.xu.meterInterval ≠ 0)) s State.meterExpiry = _
  rw [decide_eq_true h, decide_eq_true on]
  rfl

section
variable {s : State} (attached : s.xu.attach = .attached)
include attached

/-- With no meter expiry, the period start ends at what the scan count did, the meter count moved. -/
theorem xuPeriodStart_of_quiet (quiet : s.meterQuiet) : xuPeriodStart s = settle s s.scanTick.meterCounted := by
  rw [xuPeriodStart_of_attached attached, meterTick_of_quiet ((scanTick_meterQuiet s).mpr quiet)]

/-- A scan expiry alone is the command's own, the meter count moved before it. -/
theorem xuPeriodStart_of_scan_expiry (quiet : s.meterQuiet) (due : s.xu.scanInterval ≤ s.xu.scanCount + 1) :
    xuPeriodStart s = exec .scanIntervalExpiry s.meterCounted :=
  calc xuPeriodStart s
    _ = settle s s.scanExpiry.meterCounted := by rw [xuPeriodStart_of_quiet attached quiet, scanTick_of_le due]
    _ = settle s s.meterCounted.scanExpiry := by rw [scanExpiry_meterCounted]
    _ = settle s.meterCounted s.meterCounted.scanExpiry :=
      (settle_congr _ (sameBlocks_meterCounted s) rfl rfl).symm
    _ = exec .scanIntervalExpiry s.meterCounted :=
      (exec_scanIntervalExpiry_of_attached (s := s.meterCounted) attached).symm

/-- A meter expiry is the command's own, behind what the scan count did. -/
theorem xuPeriodStart_of_meter_expiry (due : ¬s.meterQuiet) :
    xuPeriodStart s = exec .meterIntervalExpiry s.scanTick := by
  have attached' : s.scanTick.xu.attach = .attached := (scanTick_attach s).trans attached
  have due' : ¬s.scanTick.meterQuiet := fun h => due ((scanTick_meterQuiet s).mp h)
  calc xuPeriodStart s
    _ = settle s s.scanTick.meterExpiry := by rw [xuPeriodStart_of_attached attached, meterTick_of_not_quiet due']
    _ = settle s.scanTick s.scanTick.meterExpiry :=
      (settle_congr _ (scanTick_frame s).1 (scanTick_mode s) (scanTick_refusals s)).symm
    _ = exec .meterIntervalExpiry s.scanTick :=
      (exec_meterIntervalExpiry_of_attached attached' (not_or.mp due').1).symm

end

/-- Settles O2: the scan count's tick is the state `v` of the statement, and the meter count's tick follows it. -/
theorem emptyQueueTakesXuPeriodStart : Obligations.EmptyQueueTakesXuPeriodStart := by
  intro s empty
  rw [step_of_empty empty]
  refine ⟨xuPeriodStart_of_not_attached, fun attached x v quiet hx hquiet ticked => ?_⟩
  have hv : v = s.scanTick := by
    subst hx
    rcases ticked with ⟨short, rfl⟩ | ⟨due, ⟨busy, rfl⟩ | ⟨idle, full, rfl⟩ | ⟨idle, k, free, first, rfl⟩⟩
    · exact (scanTick_of_lt short).symm
    · exact ((scanTick_of_le due).trans (scanExpiry_of_pass attached busy)).symm
    · exact ((scanTick_of_le due).trans (scanExpiry_of_none_free attached idle full)).symm
    · exact ((scanTick_of_le due).trans (scanExpiry_of_first_free attached idle free first)).symm
  have quiet_iff : quiet = true ↔ s.meterQuiet := by rw [hquiet, decide_eq_true_iff]; rfl
  subst hv
  refine ⟨fun q => ?_, fun q => xuPeriodStart_of_scan_expiry attached (quiet_iff.mp q), fun q => ?_⟩
  · rw [xuPeriodStart_of_quiet attached (quiet_iff.mp q), ← scanTick_meterInterval s, ← scanTick_meterCount s]
    exact settle_settles s s.scanTick.meterCounted
  · exact xuPeriodStart_of_meter_expiry attached fun h => Bool.eq_false_iff.mp q (quiet_iff.mpr h)

end Sys2Proof.Machine

/-! PROOFS. The statements of the mix computation (Chapter 2): the mix period start, ROUTE_SET, fades. -/

namespace Sys2Proof

theorem Table.mem_toList {n : Nat} {α : Type} {t : Table n α} {a : α} : a ∈ t.toList ↔ ∃ i, t.get i = a := by
  rw [List.mem_iff_get]
  constructor
  · rintro ⟨i, rfl⟩
    exact ⟨i.cast t.size_eq, rfl⟩
  · rintro ⟨i, rfl⟩
    exact ⟨i.cast t.size_eq.symm, rfl⟩

end Sys2Proof

namespace Sys2Proof.Machine

/-! ## Sums and peaks -/

/-- A sum over all numbers with the term of `k` taken out again leaves that of the others (R44). -/
theorem sumOver_sub {n : Nat} (f : Fin n → Int) (k : Fin n) :
    sumOver f - f k = sumOver fun i => if i ≠ k then f i else 0 := by
  simp only [sumOver, ← Fin.sum_univ_def]
  rw [← Finset.sum_filter, Finset.filter_ne', Finset.sum_erase_eq_sub (Finset.mem_univ k)]

/-- A running maximum of magnitudes bounds where it began and every magnitude, and is one of them. -/
theorem foldl_max_natAbs (l : List Int) (a : Nat) :
    a ≤ l.foldl (fun acc y => max acc y.natAbs) a
      ∧ (∀ y ∈ l, y.natAbs ≤ l.foldl (fun acc y => max acc y.natAbs) a)
      ∧ (l.foldl (fun acc y => max acc y.natAbs) a = a
        ∨ ∃ y ∈ l, l.foldl (fun acc y => max acc y.natAbs) a = y.natAbs) := by
  induction l generalizing a with
  | nil => exact ⟨le_rfl, by simp, .inl rfl⟩
  | cons x l ih =>
    obtain ⟨start, bound, attained⟩ := ih (max a x.natAbs)
    refine ⟨(le_max_left ..).trans start, List.forall_mem_cons.mpr ⟨(le_max_right ..).trans start, bound⟩, ?_⟩
    rcases attained with h | ⟨y, hy, h⟩
    · rcases max_choice a x.natAbs with ha | hx
      · exact .inl (h.trans ha)
      · exact .inr ⟨x, List.mem_cons_self, h.trans hx⟩
    · exact .inr ⟨y, List.mem_cons_of_mem x hy, h⟩

theorem natAbs_le_peakOf (p : Period) (i : Fin 48) : (p.get i).natAbs ≤ peakOf p := by
  obtain ⟨-, bound, -⟩ := foldl_max_natAbs p.toList 0
  exact bound _ (Table.mem_toList.mpr ⟨i, rfl⟩)

/-- The peak of a period is the magnitude of one of its samples. -/
theorem peakOf_eq (p : Period) : ∃ i, peakOf p = (p.get i).natAbs := by
  obtain ⟨-, -, zero | ⟨y, hy, h⟩⟩ := foldl_max_natAbs p.toList 0
  · have quiet : (p.get 0).natAbs ≤ 0 := zero ▸ natAbs_le_peakOf p 0
    exact ⟨0, zero.trans (Nat.le_zero.mp quiet).symm⟩
  · obtain ⟨i, rfl⟩ := Table.mem_toList.mp hy
    exact ⟨i, h⟩

/-! ## Saturation (R38, R39) -/

theorem overflows24_eq (x : Int) : overflows24 x = decide (sat24 x ≠ x) := by
  rw [Bool.eq_iff_iff]
  simp only [overflows24, Bool.or_eq_true, decide_eq_true_eq]
  simp only [sat24, Config.sampleMin, Config.sampleMax]
  omega

/-- The samples that saturation changes are counted (R39). -/
theorem saturations_build (f : Fin 48 → Int) :
    saturations (Table.build f) = ((List.finRange 48).filter fun i => decide (sat24 (f i) ≠ f i)).length := by
  rw [saturations, Table.toList_build, List.ofFn_eq_map, List.filter_map, List.length_map]
  simp only [Function.comp_def, overflows24_eq]

@[simp] theorem outputsOf_get (a : Table 48 Int) (i : Fin 48) : (outputsOf a).get i = sat24 (a.get i) := by
  simp [outputsOf]

@[simp] theorem Zm.accumulators_get (m : Zm) (z : Zone) (g : Gains) (i : Fin 48) :
    (m.accumulators z g).get i = m.accumulator z g i := by
  simp [Zm.accumulators]

/-! ## Gains and held periods (R29, R41) -/

theorem Gains.mute_iff (g : Gains) : g.mute = true ↔ g = .zero := by
  cases g
  simp [Gains.mute, Gains.zero, and_assoc]

/-- The held period of any source loses its mark alone (R30, step 4). -/
@[simp] theorem HeldTable.get_stale (h : HeldTable) (k : Source) : h.stale.get k = (h.get k).stale := by
  cases k <;> simp [HeldTable.stale, HeldTable.get]

/-! ## What the mix period start leaves, field by field -/

@[simp] theorem Zm.mixed_zone (m : Zm) (z : Zone) : m.mixed.zones.get z = m.mixedZone z (m.zones.get z) := by
  simp [Zm.mixed]

@[simp] theorem Lp.handed_zone (l : Lp) (m : Zm) (z : Zone) : (l.handed m).zoneTx.get z = m.zoneOut z := by
  simp [Lp.handed]

@[simp] theorem Lp.handed_station (l : Lp) (m : Zm) (st : Station) :
    (l.handed m).stationTx.get st = m.stationOut st := by
  simp [Lp.handed]

section
variable (m : Zm) (z : Zone) (r : ZoneRec)

/-- A bed reads the held periods by their source (R29, R36). -/
theorem Zm.bed_eq (k : BedClass) (i : Fin 48) :
    m.bed k z i = ((List.finRange 16).map fun c =>
      if (m.streams.get c).running = true ∧ (m.streams.get c).cls = k then
        rs ((m.held.get (.stream c)).supplies i) ((m.cross.get c).get z)
      else 0).sum := by
  simp only [Zm.bed, sumOver, HeldTable.get, Bool.and_eq_true, decide_eq_true_eq]

@[simp] theorem Zm.mixedZone_current : (m.mixedZone z r).current = r.moved := rfl

theorem Zm.mixedZone_clips :
    (m.mixedZone z r).clips =
      min 65535 (r.clips + ((List.finRange 48).filter fun i =>
        decide (sat24 (m.accumulator z r.moved i) ≠ m.accumulator z r.moved i)).length) :=
  congrArg (fun n => min 65535 (r.clips + n)) (saturations_build (m.accumulator z r.moved))

theorem Zm.le_mixedZone_peak : r.peak ≤ (m.mixedZone z r).peak := le_max_left ..

theorem Zm.natAbs_le_mixedZone_peak (i : Fin 48) :
    (sat24 (m.accumulator z r.moved i)).natAbs ≤ (m.mixedZone z r).peak := by
  have h := natAbs_le_peakOf (outputsOf (m.accumulators z r.moved)) i
  rw [outputsOf_get, Zm.accumulators_get] at h
  exact h.trans (le_max_right ..)

/-- The peak is the old one or the magnitude of an output sample (R40). -/
theorem Zm.mixedZone_peak :
    (m.mixedZone z r).peak = r.peak
      ∨ ∃ i, (m.mixedZone z r).peak = (sat24 (m.accumulator z r.moved i)).natAbs := by
  obtain ⟨i, h⟩ := peakOf_eq (outputsOf (m.accumulators z r.moved))
  rw [outputsOf_get, Zm.accumulators_get] at h
  exact (max_choice r.peak (peakOf (outputsOf (m.accumulators z r.moved)))).imp id fun e => ⟨i, e.trans h⟩

@[simp] theorem Zm.zoneOut_sample (i : Fin 48) :
    (m.zoneOut z).buffer.samples.get i = sat24 (m.accumulator z (m.zones.get z).moved i) := by
  simp [Zm.zoneOut]

@[simp] theorem Zm.stationOut_sample (st : Station) (i : Fin 48) :
    (m.stationOut st).samples.get i = m.earpiece st i := by
  simp [Zm.stationOut]

theorem Zm.zoneOut_mute : (m.zoneOut z).mute = true ↔ (m.zones.get z).moved = .zero := Gains.mute_iff _

end

/-- The talkers of a group whom station `k` hears are the others that have their key down (R44). -/
theorem Zm.sum_talkers (m : Zm) (g : Group) (k : Station) (i : Fin 48) :
    (sumOver fun st => if m.talks g st then m.mic st i else 0) - (if m.talks g k then m.mic k i else 0)
      = sumOver fun st =>
          if st ≠ k ∧ (m.conv.get st).standing = .group g ∧ (m.conv.get st).keyDown = true then m.mic st i else 0 := by
  rw [sumOver_sub (fun st => if m.talks g st then m.mic st i else 0) k]
  simp only [← ite_and, Zm.talks, Bool.and_eq_true, decide_eq_true_eq]

section
variable {m : Zm} {k : Station} (i : Fin 48)

theorem Zm.earpiece_of_none (h : (m.conv.get k).standing = .none) : m.earpiece k i = 0 := by
  simp only [Zm.earpiece, h]

theorem Zm.earpiece_of_pair {j : Station} (h : (m.conv.get k).standing = .pair j) :
    m.earpiece k i = sat24 (rs (m.mic j i) (m.conv.get k).listen) := by
  simp only [Zm.earpiece, h]

theorem Zm.earpiece_of_group {g : Group} (h : (m.conv.get k).standing = .group g) :
    m.earpiece k i =
      sat24 (rs (sumOver fun st =>
        if st ≠ k ∧ (m.conv.get st).standing = .group g ∧ (m.conv.get st).keyDown = true then m.mic st i else 0)
        (m.conv.get k).listen) := by
  simp only [Zm.earpiece, h, Zm.sum_talkers]

end

/-! ## MIX_PERIOD_START (R30) -/

/-- MIX_PERIOD_START is due at any state. -/
theorem exec_mixPeriodStart_settles (s : State) :
    ∃ t, exec .mixPeriodStart s = .next t
      ∧ ({ s with zm := s.zm.mixed, lp := s.lp.handed s.zm } : State).settles t :=
  settle_settles s ((s.modLp fun l => l.handed s.zm).modZm Zm.mixed)

/-- Settles O37: the functions the statement gives are the model's own (`rs`, `sat24`, `Zm.bed`, `Zm.pageSample`,
`Zm.accumulator`), and the lemmas above say what is made of them. -/
theorem mixPeriodStartMixesEveryZone : Obligations.MixPeriodStartMixesEveryZone := by
  intro s rnd sat src hrnd hsat hsrc
  obtain rfl : rnd = rs := by funext x g; exact hrnd x g
  obtain rfl : sat = sat24 := by funext x; exact hsat x
  obtain rfl : src = fun k => (s.zm.held.get k).supplies := by funext k i; exact hsrc k i
  obtain ⟨t, taken, settled⟩ := exec_mixPeriodStart_settles s
  have zm : t.zm = s.zm.mixed := settled.zm
  have lp : t.lp = s.lp.handed s.zm := settled.lp
  refine ⟨t, taken, ?_⟩
  rw [zm, lp]
  refine ⟨settled, rfl, fun k => HeldTable.get_stale s.zm.held k, ?_, fun st i => ?_⟩
  · intro z r g bed page acc hr hg hbed hpage hacc
    subst hr
    rw [Zm.mixed_zone, Zm.mixedZone_current] at hg
    subst hg
    obtain rfl : bed = fun k => s.zm.bed k z := by
      funext k i
      rw [hbed, Zm.bed_eq]
    obtain rfl : page = s.zm.pageSample := by
      funext c i
      rw [hpage, Zm.pageSample]
      rcases s.zm.pages.get c with _ | ⟨st, _ | _⟩ <;> rfl
    obtain rfl : acc = s.zm.accumulator z (s.zm.zones.get z).moved := by
      funext i
      rw [hacc, Zm.accumulator]
      rcases (s.zm.zones.get z).holders with ⟨_ | _, _ | _, _ | _, _ | _⟩ <;> rfl
    rw [Zm.mixed_zone, Lp.handed_zone]
    refine ⟨rfl, rfl, ?slewed, fun i => Zm.zoneOut_sample .., rfl, rfl, Zm.zoneOut_mute .., rfl,
      Zm.mixedZone_clips .., Zm.le_mixedZone_peak .., fun i => Zm.natAbs_le_mixedZone_peak .., Zm.mixedZone_peak ..⟩
    case slewed =>
      intro cur tgt new h
      simp only [List.mem_cons, Prod.mk.injEq, List.not_mem_nil, or_false] at h
      rcases h with ⟨rfl, rfl, rfl⟩ | ⟨rfl, rfl, rfl⟩ | ⟨rfl, rfl, rfl⟩ | ⟨rfl, rfl, rfl⟩ <;> rfl
  · rw [Lp.handed_station]
    refine ⟨rfl, ?_⟩
    rintro c rfl
    rw [Zm.stationOut_sample]
    cases h : (s.zm.conv.get st).standing with
    | none => exact Zm.earpiece_of_none i h
    | pair j => exact Zm.earpiece_of_pair i h
    | group g => exact Zm.earpiece_of_group i h

/-! ## ROUTE_SET (R35) -/

theorem takeRouteSet_of_stream_out {s : State} {slot : SlotIx} {p : RouteSetParams} (h : 15 < p.stream.toNat) :
    takeRouteSet slot p s = s.refuse slot .format 1 := by
  rw [takeRouteSet, index_none (Nat.not_lt.mpr h)]

theorem takeRouteSet_of_set_out {s : State} {slot : SlotIx} {p : RouteSetParams} {c : Stream}
    (hc : c.val = p.stream.toNat) (h : 31 < p.set.toNat) : takeRouteSet slot p s = s.refuse slot .format 2 := by
  rw [takeRouteSet, index_some c hc, index_none (Nat.not_lt.mpr h)]

theorem takeRouteSet_of_named {s : State} {slot : SlotIx} {p : RouteSetParams} {c : Stream} {k : SetIx}
    (hc : c.val = p.stream.toNat) (hk : k.val = p.set.toNat) :
    takeRouteSet slot p s =
      (s.modZm fun m => m.route s.xu.mode c (s.zm.sets.get k).members p.gain.toNat).perform slot
        (.zones (maskSize (s.zm.sets.get k).members)) := by
  rw [takeRouteSet, index_some c hc, index_some k hk]

theorem zmTakesRequest_of_nil {s : State} (h : s.net.xuToZm = []) : s.zmTakesRequest = true :=
  List.isEmpty_iff.mpr h

/-- A ROUTE_SET that is dispatched, and that ZM may take, is answered with what ZM makes of it. -/
theorem exec_routeSet_answers {s u : State} {slot : SlotIx} {p : RouteSetParams} {c : Completion}
    (dispatched : s.xu.dispatch = some (slot, .routeSet p)) (free : s.net.xuToZm = [])
    (made : takeRouteSet slot p s = u.handOver slot c) :
    ∃ t, exec (.routeSet slot p) s = .next t ∧ u.answers t slot c :=
  request_answers dispatched (zmTakesRequest_of_nil free) made

/-- Settles O20: the zones and the crosspoints are those of `Zm.route`. -/
theorem routeSetWritesCrosspoints : Obligations.RouteSetWritesCrosspoints := by
  intro s slot p dispatched free
  refine ⟨fun out => ?_, fun stream out => ?_, fun c k hc hk => ?_⟩
  · exact exec_routeSet_answers dispatched free (takeRouteSet_of_stream_out out)
  · have named : (⟨p.stream.toNat, Nat.lt_succ_of_le stream⟩ : Stream).val = p.stream.toNat := rfl
    exact exec_routeSet_answers dispatched free (takeRouteSet_of_set_out named out)
  · obtain ⟨t, taken, answered⟩ := exec_routeSet_answers dispatched free (takeRouteSet_of_named hc hk)
    exact ⟨t, _, taken, answered, rfl, Zm.route_cross s.zm s.xu.mode c _ _, Zm.route_get s.zm s.xu.mode c _ _⟩

/-! ## Fades (R46, R47) -/

theorem Fader.fade_target (f : Fader) (target length : Nat) : (f.fade target length).target = min 32768 target := by
  rw [Fader.fade, clampGain_eq]
  split
  · rfl
  · split <;> rfl

theorem Fader.fade_of_still {f : Fader} {target length : Nat}
    (h : min 60000 length = 0 ∨ f.current = min 32768 target) :
    f.fade target length = ⟨min 32768 target, min 32768 target, 0⟩ := by
  rw [Fader.fade, clampGain_eq, Config.maxFade, Nat.min_comm length]
  rcases h with zero | there
  · exact if_pos zero
  · simp only [if_pos there, ite_self]

/-- The step of a fade is the quotient of its gap and its length, rounded up (R46). -/
theorem Fader.fade_of_moving {f : Fader} {target length : Nat} (moves : min 60000 length ≠ 0)
    (away : f.current ≠ min 32768 target) :
    f.fade target length =
      ⟨f.current, min 32768 target,
        ((min 32768 target - f.current) + (f.current - min 32768 target)) ⌈/⌉ min 60000 length⟩ := by
  rw [Fader.fade, clampGain_eq, Config.maxFade, Nat.min_comm length, Nat.ceilDiv_eq_add_pred_div]
  simp only [if_neg moves, if_neg away]

theorem Fader.moved_eq (f : Fader) :
    f.moved =
      { f with
        current :=
          if f.current ≤ f.target then min f.target (f.current + f.step)
          else max f.target (f.current - f.step) } := by
  unfold Fader.moved
  split <;> rfl

/-- After `k` moves a fader stands `k` steps nearer its target, and no further than there (R47). -/
theorem Fader.iterate_moved (f : Fader) (k : Nat) :
    Fader.moved^[k] f =
      { f with
        current :=
          if f.current ≤ f.target then min f.target (f.current + k * f.step)
          else max f.target (f.current - k * f.step) } := by
  induction k with
  | zero =>
    obtain ⟨current, target, step⟩ := f
    rw [Function.iterate_zero, id, Fader.mk.injEq]
    simp only [and_true]
    split_ifs <;> omega
  | succ k ih =>
    rw [Function.iterate_succ_apply', ih, Fader.moved_eq, Nat.succ_mul, Fader.mk.injEq]
    simp only [and_true]
    split_ifs <;> omega

/-- A rounded-up quotient of the gap carries a fader over it in as many moves as the divisor. -/
theorem Fader.iterate_moved_arrives {f : Fader} {n : Nat}
    (far : (f.target - f.current) + (f.current - f.target) ≤ n * f.step) : (Fader.moved^[n] f).current = f.target := by
  simp only [Fader.iterate_moved]
  split <;> omega

/-- Settles O29: the step is the gap divided by the length, rounded up, which is the least `m` with `gap ≤ n * m`. -/
theorem fadesArriveWithinTheirLength : Obligations.FadesArriveWithinTheirLength := by
  intro f g target length t n hg ht hn
  subst hg ht hn
  refine ⟨Fader.fade_target f target length, Fader.fade_of_still, fun moves away => ?_⟩
  have positive : 0 < min 60000 length := Nat.pos_of_ne_zero moves
  rw [Fader.fade_of_moving moves away]
  generalize min 60000 length = n at *
  generalize min 32768 target = t at *
  have step_le (m : Nat) : (t - f.current + (f.current - t)) ⌈/⌉ n ≤ m ↔ t - f.current + (f.current - t) ≤ n * m :=
    ceilDiv_le_iff_le_mul positive
  have arrives := (step_le _).mp le_rfl
  refine ⟨rfl, ?_, fun m up down => ?_, fun k => ?_, Fader.iterate_moved_arrives arrives⟩
  · by_contra stands
    have no_gap := (step_le 0).mp (Nat.not_lt.mp stands)
    omega
  · rw [step_le, Nat.mul_comm]
    omega
  · rw [Fader.iterate_moved]

end Sys2Proof.Machine

/-! PROOFS. The statements of programmed announcements (Chapter 3): ANNOUNCE and its cancel, the ends and fetches of players,
AU's period start, preemption and the teardown parts. -/

namespace Sys2Proof

/-! ## Folds and filters -/

/-- A list in which one element alone satisfies `p`. -/
theorem filter_only {α : Type} {p : α → Bool} {before after : List α} {e : α} (he : p e = true)
    (others : ∀ x ∈ before ++ after, p x = false) :
    (before ++ e :: after).filter p = [e] ∧ (before ++ e :: after).filter (fun x => !p x) = before ++ after := by
  have pre : ∀ x ∈ before, p x = false := fun x hx => others x (List.mem_append_left after hx)
  have post : ∀ x ∈ after, p x = false := fun x hx => others x (List.mem_append_right before hx)
  constructor
  · rw [List.filter_append, List.filter_cons_of_pos he, List.filter_eq_nil_iff.mpr fun x hx => by simp [pre x hx],
      List.filter_eq_nil_iff.mpr fun x hx => by simp [post x hx], List.nil_append]
  · rw [List.filter_append, List.filter_cons_of_neg (by simp [he]), List.filter_eq_self.mpr fun x hx => by simp [pre x hx],
      List.filter_eq_self.mpr fun x hx => by simp [post x hx]]

/-- Changing every entry of a table in turn changes the table. -/
theorem Table.foldl_update {n : Nat} {α : Type} (t : Table n α) (g : Fin n → α → α) :
    (List.finRange n).foldl (fun t i => t.set i (g i (t.get i))) t = t.update g := by
  obtain ⟨-, written⟩ := foldl_entries (fun (t : Table n α) i => t.set i (g i (t.get i))) Table.get g (fun _ => True)
    (fun _ _ _ => trivial) (fun t i _ => t.get_set_self i _) (fun t i _ _ other => t.get_set_ne _ other) t trivial
  exact Table.ext_get fun i => by rw [written i, Table.get_update]

/-- Writing every entry of a table in turn builds the table. -/
theorem Table.foldl_set {n : Nat} {α : Type} (t : Table n α) (f : Fin n → α) :
    (List.finRange n).foldl (fun t i => t.set i (f i)) t = Table.build f :=
  t.foldl_update fun i _ => f i

/-- A fold whose step is an action followed by one that every action commutes with: all of the former, then all of the
latter. -/
theorem foldl_split {σ ι : Type} (A E : σ → ι → σ) (comm : ∀ s i j, A (E s i) j = E (A s j) i) (l : List ι) (s : σ) :
    l.foldl (fun s i => E (A s i) i) s = l.foldl E (l.foldl A s) := by
  induction l generalizing s with
  | nil => rfl
  | cons i l ih =>
    simp only [List.foldl_cons]
    rw [ih, List.foldl_hom (fun s => E s i) fun s j => comm s i j]

/-- Where some element of a list has the property whose steps set a value, and the other steps leave it, a fold over the
list leaves the value set. -/
theorem foldl_get_of_mem {σ ι α : Type} {f : σ → ι → σ} {get : σ → α} {a : α} {q : ι → Prop} {l : List ι}
    (sets : ∀ x ∈ l, q x → ∀ s, get (f s x) = a) (keeps : ∀ x ∈ l, ¬q x → ∀ s, get (f s x) = get s)
    (some_mem : ∃ x ∈ l, q x) (s : σ) : get (l.foldl f s) = a := by
  induction l using List.reverseRecOn with
  | nil => simp at some_mem
  | append_singleton l y ih =>
    rw [List.foldl_append, List.foldl_cons, List.foldl_nil]
    by_cases hy : q y
    · exact sets y (by simp) hy _
    · obtain ⟨x, hx, hq⟩ := some_mem
      have mem : x ∈ l := by
        rcases List.mem_append.mp hx with hx | hx
        · exact hx
        · exact absurd (List.mem_singleton.mp hx ▸ hq) hy
      rw [keeps y (by simp) hy]
      exact ih (fun x hx => sets x (List.mem_append_left _ hx)) (fun x hx => keeps x (List.mem_append_left _ hx))
        ⟨x, mem, hq⟩

/-- A value that every step of a fold leaves stays. -/
theorem foldl_get_of_keeps {σ ι α : Type} {f : σ → ι → σ} {get : σ → α} {l : List ι}
    (keeps : ∀ x ∈ l, ∀ s, get (f s x) = get s) (s : σ) : get (l.foldl f s) = get s := by
  induction l generalizing s with
  | nil => rfl
  | cons x l ih =>
    rw [List.foldl_cons, ih (fun y hy => keeps y (List.mem_cons_of_mem x hy)), keeps x List.mem_cons_self]

/-- A fold whose step `i` changes entry `i` of a table of the part and sends something of it as it stood: `part` is the part
with the table and what was sent. -/
theorem foldl_set_send {n : Nat} {α β σ : Type} {f : σ → Fin n → σ} (part : Table n α → List β → σ) (g : Fin n → α → α)
    (send : Fin n → α → List β)
    (step : ∀ t sent i, f (part t sent) i = part (t.set i (g i (t.get i))) (sent ++ send i (t.get i)))
    (t : Table n α) (sent : List β) :
    (List.finRange n).foldl f (part t sent) =
      part (t.update g) (sent ++ (List.finRange n).flatMap fun i => send i (t.get i)) := by
  have key : ∀ (l : List (Fin n)) (t : Table n α) (sent : List β), l.Nodup →
      l.foldl f (part t sent) =
        part (l.foldl (fun t i => t.set i (g i (t.get i))) t) (sent ++ l.flatMap fun i => send i (t.get i)) := by
    intro l
    induction l with
    | nil => simp
    | cons i l ih =>
      intro t sent nodup
      obtain ⟨not_mem, nodup⟩ := List.nodup_cons.mp nodup
      have rest : (l.flatMap fun j => send j ((t.set i (g i (t.get i))).get j)) = l.flatMap fun j => send j (t.get j) :=
        List.flatMap_congr fun j hj => by rw [Table.get_set_ne t _ (ne_of_mem_of_not_mem hj not_mem)]
      rw [List.foldl_cons, step, ih _ _ nodup, rest, List.flatMap_cons, List.append_assoc, List.foldl_cons]
  rw [key _ _ _ (List.nodup_finRange n), Table.foldl_update]

end Sys2Proof

namespace Sys2Proof.Machine

/-! ## ANNOUNCE (R48 to R51) -/

theorem auTakesRequest_of_nil {s : State} (idle : s.au.exam = none) (nil : s.net.xuToAu = []) :
    s.auTakesRequest = true := by
  simp [State.auTakesRequest, Au.freeToAct, idle, nil]

theorem freeToAct_of_none {a : Au} (idle : a.exam = none) : a.freeToAct = true := by rw [Au.freeToAct, idle]; rfl

theorem clampClip_eq (n : Nat) : clampClip n = max 1 (min 600000 n) := clamp_eq _ _ _ (by decide)

/-- An expiry field of 0 is no expiry (R48). -/
theorem expiryOf_toNat (v : BitVec 32) :
    expiryOf v.toNat = if v = 0 then none else some (min 600000 v.toNat) := by
  rw [expiryOf, Nat.min_comm, Config.maxClip]
  exact if_congr (BitVec.toNat_eq (x := v) (y := 0)).symm rfl rfl

/-- The night filter, zone by zone (R49). -/
theorem State.inMask_filtered (s : State) (mask : ZoneMask) (urgent : Bool) (z : Zone) :
    inMask (s.filtered mask urgent) z = true ↔
      inMask mask z = true ∧ s.xu.mode = .night ∧ urgent = false
        ∧ (s.zm.zones.get z).settings.flags.cabin = true ∧ (s.zm.zones.get z).settings.flags.nightPermit = false := by
  unfold State.filtered
  split
  case isTrue night =>
    obtain ⟨mode, quiet⟩ : s.xu.mode = .night ∧ urgent = false := by simpa using night
    simp [Zm.nightFiltered, mode, quiet, and_assoc]
  case isFalse other =>
    simp only [Bool.and_eq_true, decide_eq_true_eq, Bool.not_eq_true', not_and] at other
    simp only [inMask_zero, Bool.false_eq_true, false_iff]
    exact fun ⟨_, mode, quiet, _⟩ => other mode quiet

section
variable {s : State} {slot : SlotIx} {p : AnnounceParams}

theorem takeAnnounce_of_no_zone (none_named : p.mask = 0) : takeAnnounce slot p s = s.refuse slot .format 1 :=
  if_pos none_named

theorem takeAnnounce_of_policy_out (named : p.mask ≠ 0) (out : 1 < p.policy.toNat) :
    takeAnnounce slot p s = s.refuse slot .format 5 := by
  rw [takeAnnounce, if_neg named, if_pos out]

theorem takeAnnounce_of_unaligned (named : p.mask ≠ 0) (policy : p.policy.toNat ≤ 1)
    (off : p.clipAddr.toNat % 64 ≠ 0) : takeAnnounce slot p s = s.refuse slot .align 2 := by
  rw [takeAnnounce, if_neg named, if_neg (Nat.not_lt.mpr policy), if_pos (by simp [aligned64, off])]

/-- What becomes of an ANNOUNCE that passes its own checks and of which the night filter takes `gone` (R48 to R51). -/
theorem takeAnnounce_of_checked {gone : ZoneMask} (named : p.mask ≠ 0) (policy : p.policy.toNat ≤ 1)
    (aligned : p.clipAddr.toNat % 64 = 0) (filtered : s.filtered p.mask (decide (p.urgent ≠ 0)) = gone) :
    takeAnnounce slot p s =
      if p.mask &&& ~~~gone = 0 then s.handOver slot (.done .filtered .unplayed)
      else if 16 ≤ s.au.waitList.length then s.refuse slot .full 0
      else
        { s with
          au :=
            { s.au with
              examPending := true
              waitList :=
                s.au.waitList ++
                  [⟨.slot slot, p.mask &&& ~~~gone, gone, p.clipAddr, max 1 (min 600000 p.clipLen.toNat),
                    decide (p.chime ≠ 0), if p.policy = 0 then .waitAll else .partly,
                    if p.expiry = 0 then none else some (min 600000 p.expiry.toNat)⟩] } } := by
  rw [takeAnnounce, if_neg named, if_neg (Nat.not_lt.mpr policy), if_neg (by simp [aligned64, aligned]), filtered,
    clampClip_eq, expiryOf_toNat]
  rfl

end

/-- Settles O21: the zones the statement calls gone are those of the night filter, and each way a request goes is a branch
of `takeAnnounce`. -/
theorem announceJoinsTheWaitList : Obligations.AnnounceJoinsTheWaitList := by
  intro s slot p dispatched idle nil
  have free := auTakesRequest_of_nil idle nil
  refine ⟨fun none_named => ?_, fun named out => ?_, fun named policy off => ?_,
    fun named policy aligned gone hgone => ?_⟩
  · exact request_answers dispatched free (takeAnnounce_of_no_zone none_named)
  · exact request_answers dispatched free (takeAnnounce_of_policy_out named out)
  · exact request_answers dispatched free (takeAnnounce_of_unaligned named policy off)
  · have filtered : s.filtered p.mask (decide (p.urgent ≠ 0)) = gone := by
      refine mask_ext fun z => Bool.eq_iff_iff.mpr ?_
      rw [State.inMask_filtered, hgone, decide_eq_false_iff_not, not_not]
    have taken := takeAnnounce_of_checked (slot := slot) named policy aligned filtered
    refine ⟨fun left => ?_, fun left full => ?_, fun left room => ?_⟩
    · exact request_answers dispatched free (taken.trans (if_pos left))
    · exact request_answers dispatched free ((taken.trans (if_neg left)).trans (if_pos full))
    · exact request_takes dispatched free ((taken.trans (if_neg left)).trans (if_neg (Nat.not_le.mpr room)))

/-! ## ANNOUNCE_CANCEL (R65) -/

/-- A completion handed over, or none where the announcement has no slot (R70). -/
theorem State.handOver?_origin (s : State) (o : Option Origin) (c : Completion) :
    s.handOver? (o.bind Origin.slot?) c =
      match o with
      | some (.slot k) => s.completed k c
      | _ => s := by
  rcases o with _ | k | n
  · rfl
  · exact handOver_eq s k c
  · rfl

/-- The lowest player that plays a slot's announcement. -/
theorem Au.playing_eq_some {a : Au} {k : SlotIx} {q : Player} (plays : (a.players.get q).phase ≠ .free)
    (origin : (a.players.get q).origin = some (.slot k))
    (first : ∀ i < q, (a.players.get i).phase = .free ∨ (a.players.get i).origin ≠ some (.slot k)) :
    a.playing k = some q := by
  refine find_fin (by simp [plays, origin]) fun i hi => ?_
  rcases first i hi with free | other
  · simp [free]
  · simp [other]

theorem Au.playing_eq_none {a : Au} {k : SlotIx}
    (h : ∀ q, (a.players.get q).phase = .free ∨ (a.players.get q).origin ≠ some (.slot k)) : a.playing k = none := by
  refine List.find?_eq_none.mpr fun q _ => ?_
  rcases h q with free | other
  · simp [free]
  · simp [other]

/-- A player that plays, stopped (R63). -/
theorem State.stopPlayer_of_plays {s : State} {p : Player} (plays : (s.player p).phase ≠ .free) (o : JobOutcome) :
    s.stopPlayer o p = s.endPlayer p o := if_neg plays

/-- A player of a slot's announcement ends: that slot completes (R62, R63). -/
theorem State.endPlayer_of_slot {s : State} {p : Player} {k : SlotIx} (origin : (s.player p).origin = some (.slot k))
    (o : JobOutcome) :
    s.endPlayer p o =
      ({ s with
          au := { s.au with players := s.au.players.set p (s.player p).freed, examPending := true }
          net := { s.net with auToZm := s.net.auToZm ++ [.release (.programmed p) (s.player p).admitted] } } :
        State).completed k (.done o (s.player p).results) := by
  simp only [State.endPlayer_eq, origin]

theorem find_origin_of_none_waits {l : List Entry} {k : SlotIx} (none_waits : ∀ e ∈ l, e.origin ≠ .slot k) :
    l.find? (fun e => decide (e.origin = .slot k)) = none :=
  List.find?_eq_none.mpr fun e he => by simp [none_waits e he]

section
variable {s : State} {slot k : SlotIx} {p : AnnounceCancelParams}

theorem takeAnnounceCancel_of_slot_out (out : 63 < p.slot.toNat) :
    takeAnnounceCancel slot p s = s.refuse slot .format 1 := by
  rw [takeAnnounceCancel, index_none (Nat.not_lt.mpr out)]

/-- The slot has an entry on the wait list. -/
theorem takeAnnounceCancel_of_waiting {before after : List Entry} {e : Entry} (named : k.val = p.slot.toNat)
    (list : s.au.waitList = before ++ e :: after) (origin : e.origin = .slot k)
    (first : ∀ x ∈ before, x.origin ≠ .slot k) :
    takeAnnounceCancel slot p s =
      (({ s with au := { s.au with waitList := before ++ after } } : State).completed k
        (.done .cancelled .unplayed)).handOver slot (.done .ok .none) := by
  obtain ⟨found, erased⟩ := find_first (p := fun e : Entry => decide (e.origin = .slot k)) list (by simp [origin])
    fun x hx => by simp [first x hx]
  simp only [takeAnnounceCancel, index_some k named, found, State.modAu, erased, State.dropEntry, State.handOver?,
    origin, Origin.slot?, State.perform, handOver_eq]

/-- No entry waits, and player `q` plays for the slot. -/
theorem takeAnnounceCancel_of_playing {q : Player} (named : k.val = p.slot.toNat)
    (none_waits : ∀ e ∈ s.au.waitList, e.origin ≠ .slot k) (playing : s.au.playing k = some q) :
    takeAnnounceCancel slot p s = (s.stopPlayer .cancelled q).handOver slot (.done .ok .none) := by
  simp only [takeAnnounceCancel, index_some k named, find_origin_of_none_waits none_waits, playing, State.perform]

theorem takeAnnounceCancel_of_no_target (named : k.val = p.slot.toNat)
    (none_waits : ∀ e ∈ s.au.waitList, e.origin ≠ .slot k) (playing : s.au.playing k = none) :
    takeAnnounceCancel slot p s = s.refuse slot .noTarget 1 := by
  simp only [takeAnnounceCancel, index_some k named, find_origin_of_none_waits none_waits, playing]

end

/-- Settles O22: the entry and the player the request looks for are the first of theirs, and `State.endPlayer_eq` says how the
player ends. -/
theorem announceCancelEndsTheAnnouncement : Obligations.AnnounceCancelEndsTheAnnouncement := by
  intro s slot p dispatched idle nil
  have free := auTakesRequest_of_nil idle nil
  refine ⟨fun out => ?_, fun k named => ⟨fun before e after list origin first => ?_, fun none_waits => ⟨?_, ?_⟩⟩⟩
  · exact request_answers dispatched free (takeAnnounceCancel_of_slot_out out)
  · exact request_answers dispatched free (takeAnnounceCancel_of_waiting named list origin first)
  · rintro q r rfl plays origin first
    have taken := takeAnnounceCancel_of_playing (slot := slot) named none_waits
      (Au.playing_eq_some plays origin first)
    rw [State.stopPlayer_of_plays plays, State.endPlayer_of_slot origin] at taken
    exact request_answers dispatched free taken
  · intro none_plays
    exact request_answers dispatched free
      (takeAnnounceCancel_of_no_target named none_waits (Au.playing_eq_none none_plays))

/-! ## What a player's turn does to the part -/

/-- The part of a turn that AU keeps and sends: the player's record, a pending examination if it ends, its release and its
period. -/
def State.turned (s : State) (p : Player) (w : PlayerTurn) : State :=
  { s with
    au :=
      { s.au with
        examPending := s.au.examPending || w.done.isSome
        players := s.au.players.set p w.after }
    net := { s.net with auToZm := s.net.auToZm ++ w.sends, deliveries := s.net.deliveries ++ w.out } }

/-- The part of a turn that reaches the port and XU: its fetches, and the completion of the announcement of origin `o`. -/
def State.turnEnds (s : State) (o : Option Origin) (w : PlayerTurn) : State :=
  match w.done with
  | some c => (s.issue w.reads).handOver? (o.bind Origin.slot?) c
  | none => s.issue w.reads

@[simp] theorem State.issue_nil (s : State) : s.issue [] = s := by simp [State.issue, State.modBus]

@[simp] theorem State.turned_player (s : State) (p : Player) (w : PlayerTurn) : (s.turned p w).player p = w.after := by
  simp [State.turned, State.player]

theorem State.setPlayer_eq_turned (s : State) (p : Player) (r : PlayerRec) :
    s.setPlayer p r = s.turned p ⟨r, [], [], [], none⟩ := by
  simp [State.turned, State.setPlayer, State.modAu]

theorem State.deliver_setPlayer_eq_turned (s : State) (p : Player) (x : Period) (r : PlayerRec) :
    (s.deliver (.player p) x).setPlayer p r = s.turned p ⟨r, [(.player p, x)], [], [], none⟩ := by
  simp [State.turned, State.setPlayer, State.modAu, State.deliver, State.modNet]

/-- A turn that follows another of the same player within an event adds to it. -/
theorem State.turned_turned (s : State) (p : Player) (r : PlayerRec) (out : List (Source × Period)) (w : PlayerTurn) :
    (s.turned p ⟨r, out, [], [], none⟩).turned p w = s.turned p { w with out := out ++ w.out } := by
  simp [State.turned]

/-- A turn that does nothing. -/
theorem State.turned_idle (s : State) (p : Player) : s.turned p ⟨s.player p, [], [], [], none⟩ = s := by
  simp [State.turned, State.player, Table.set_get_self]

/-! ## A player stopped (R63) -/

/-- A turn that ends the player with an outcome (R62, R63). -/
def PlayerRec.ended (r : PlayerRec) (p : Player) (o : JobOutcome) : PlayerTurn :=
  ⟨r.freed, [], [.release (.programmed p) r.admitted], [], some (.done o r.results)⟩

/-- The turn of a player that is stopped, if it plays (R63). -/
def PlayerRec.stopTurn (r : PlayerRec) (p : Player) (o : JobOutcome) : PlayerTurn :=
  if r.phase = .free then ⟨r, [], [], [], none⟩ else r.ended p o

theorem State.endPlayer_eq_handOver (s : State) (p : Player) (o : JobOutcome) :
    s.endPlayer p o =
      ({ s with
          au := { s.au with players := s.au.players.set p (s.player p).freed, examPending := true }
          net := { s.net with auToZm := s.net.auToZm ++ [.release (.programmed p) (s.player p).admitted] } } :
        State).handOver? ((s.player p).origin.bind Origin.slot?) (.done o (s.player p).results) :=
  (s.endPlayer_eq p o).trans (State.handOver?_origin _ _ _).symm

theorem State.endPlayer_eq_turn (s : State) (p : Player) (o : JobOutcome) :
    s.endPlayer p o =
      (s.turned p ((s.player p).ended p o)).turnEnds (s.player p).origin ((s.player p).ended p o) := by
  simp [State.endPlayer_eq_handOver, State.turned, State.turnEnds, PlayerRec.ended]

theorem State.stopPlayer_eq_turn (s : State) (p : Player) (o : JobOutcome) :
    s.stopPlayer o p =
      (s.turned p ((s.player p).stopTurn p o)).turnEnds (s.player p).origin ((s.player p).stopTurn p o) := by
  unfold State.stopPlayer PlayerRec.stopTurn
  split
  · rw [State.turned_idle]
    exact s.issue_nil.symm
  · exact s.endPlayer_eq_turn p o

/-! ## A due clip period (R59) -/

/-- The record after a due clip period. -/
def PlayerRec.stepped (r : PlayerRec) : PlayerRec :=
  { r with
    cursor := r.cursor + 1, mark0 := r.mark1, mark1 := if r.cursor + 2 < r.clipLen then .requested else .notRequested
    played := if r.mark0.samples?.isSome then r.played + 1 else r.played
    late := if r.mark0.samples?.isSome then r.late else countUp r.late }

/-- What a due clip period delivers: its samples, unless it is late. -/
def PlayerRec.clipOut (r : PlayerRec) (p : Player) : List (Source × Period) :=
  (r.mark0.samples?.map fun x => (.player p, x)).toList

/-- The fetch a due clip period issues: that of the period after next, if there is one. -/
def PlayerRec.clipReads (r : PlayerRec) (p : Player) : List Transfer :=
  if r.cursor + 2 < r.clipLen then [r.fetch p (r.cursor + 2)] else []

/-- The turn that plays a due clip period. -/
def PlayerRec.clipTurn (r : PlayerRec) (p : Player) : PlayerTurn :=
  if r.clipLen ≤ r.cursor + 1 then { r.stepped.ended p r.stepped.endOutcome with out := r.clipOut p }
  else ⟨r.stepped, r.clipOut p, [], r.clipReads p, none⟩

/-- A due clip period before its end is looked at. -/
theorem State.clipPeriod_eq (s : State) (p : Player) :
    s.clipPeriod p =
      let t := (s.turned p ⟨(s.player p).stepped, (s.player p).clipOut p, [], [], none⟩).issue ((s.player p).clipReads p)
      if (s.player p).clipLen ≤ (s.player p).cursor + 1 then t.clipEnded p else t := by
  rcases mark : (s.player p).mark0.samples? with _ | x <;>
    by_cases more : (s.player p).cursor + 2 < (s.player p).clipLen <;>
    simp [State.clipPeriod, PlayerRec.stepped, PlayerRec.clipOut, PlayerRec.clipReads, mark, more,
      State.setPlayer_eq_turned, ← State.deliver_setPlayer_eq_turned]

theorem State.clipPeriod_eq_turn (s : State) (p : Player) :
    s.clipPeriod p =
      (s.turned p ((s.player p).clipTurn p)).turnEnds (s.player p).origin ((s.player p).clipTurn p) := by
  rw [State.clipPeriod_eq, PlayerRec.clipTurn]
  split
  case isTrue last =>
    have none_left : (s.player p).clipReads p = [] := if_neg (by omega)
    simp only [none_left, State.issue_nil, State.clipEnded, State.turned_player, State.endPlayer_eq_turn,
      State.turned_turned, PlayerRec.ended, List.append_nil]
    rfl
  case isFalse goes_on => simp [State.turnEnds, State.turned]

/-- The turn of a player in CLIP that has a due period, as the statements give it. -/
theorem PlayerRec.turn_eq_clipTurn {r : PlayerRec} {p : Player} {store : PatternStore} {inter : ZoneMask}
    {w : PlayerTurn} (turn : r.turn p store inter w) (clip : r.phase = .clip) (led : r.lead = false)
    (due : r.cursor < r.clipLen) : w = ({ r with interrupted := inter } : PlayerRec).clipTurn p := by
  obtain ⟨-, -, inClip⟩ := turn
  obtain ⟨-, -, plays⟩ := inClip clip
  have marked := plays led due ({ r with interrupted := inter } : PlayerRec).stepped (r.clipOut p) _ rfl (by
    unfold PlayerRec.clipOut PlayerRec.stepped
    rcases h : r.mark0 with _ | _ | x <;> simp [FetchMark.samples?, countUp_eq])
  obtain ⟨more, last⟩ := marked
  unfold PlayerRec.clipTurn
  split
  case isTrue ends => exact last (Nat.le_antisymm ends due)
  case isFalse goes_on => exact more (Nat.lt_of_not_le goes_on)

/-! ## A player's turn at a period start (R56, R57, R59, R61, R62) -/

/-- A player enters CLIP: its record and its first fetches (R57). -/
theorem State.enterClip_eq (s : State) (p : Player) :
    s.enterClip p =
      (s.setPlayer p
        { s.player p with
          phase := .clip, gen := none, lead := true, mark0 := .requested
          mark1 := if 2 ≤ (s.player p).clipLen then .requested else .notRequested }).issue
        (⟨.clip p 0 (s.player p).startNumber, (s.player p).clipAddr, 192, [], true⟩
          :: if 2 ≤ (s.player p).clipLen then
            [⟨.clip p 1 (s.player p).startNumber, (s.player p).clipAddr + 192, 192, [], true⟩] else []) := by
  unfold State.enterClip
  by_cases two : 2 ≤ (s.player p).clipLen <;> simp [two, PlayerRec.fetch, readOf]

theorem ZoneRec.heldBack_iff (z : ZoneRec) (mode : Mode) :
    z.heldBack mode = true ↔
      z.target.prog = 0
        ∧ (z.holders.live ≠ none ∨ z.holders.alarm ≠ none ∨ z.holders.ev ≠ none ∨ mode = .standby ∨ mode = .service
          ∨ z.line = .short ∨ z.settings.announce = 0) := by
  simp [ZoneRec.heldBack, or_assoc, Option.isSome_iff_ne_none]

section
variable {s : State} {p : Player}

/-- The interrupted mask after the zones held back have joined it (R61). -/
theorem State.readHeldBack_eq {inter : ZoneMask}
    (held : ∀ z, inMask inter z = true ↔ inMask (s.player p).interrupted z = true
      ∨ inMask (s.player p).admitted z = true ∧ (s.zm.zones.get z).heldBack s.xu.mode = true) :
    s.readHeldBack p = s.turned p ⟨{ s.player p with interrupted := inter }, [], [], [], none⟩ := by
  have joined : (s.player p).interrupted ||| (maskOf fun z =>
      inMask (s.player p).admitted z && (s.zm.zones.get z).heldBack s.xu.mode) = inter :=
    mask_ext fun z => Bool.eq_iff_iff.mpr (by simp [held z])
  rw [State.readHeldBack, joined, State.setPlayer_eq_turned]

theorem State.playerPeriod_of_free (free : (s.player p).phase = .free) : s.playerPeriod p = s := if_pos free

theorem State.playerPeriod_of_chime {g : Gen} (chime : (s.player p).phase = .chime) (gen : (s.player p).gen = some g) :
    s.playerPeriod p = (s.readHeldBack p).chimePeriod p g := by
  simp [State.playerPeriod, State.readHeldBack, chime, gen]

theorem State.playerPeriod_of_chime_over (chime : (s.player p).phase = .chime) (gen : (s.player p).gen = none) :
    s.playerPeriod p = s.readHeldBack p := by
  simp [State.playerPeriod, State.readHeldBack, chime, gen]

theorem State.playerPeriod_of_lead (clip : (s.player p).phase = .clip) (lead : (s.player p).lead = true) :
    s.playerPeriod p = (s.readHeldBack p).setPlayer p { (s.readHeldBack p).player p with lead := false } := by
  simp [State.playerPeriod, State.readHeldBack, clip, lead]

theorem State.playerPeriod_of_due (clip : (s.player p).phase = .clip) (lead : (s.player p).lead = false)
    (due : (s.player p).cursor < (s.player p).clipLen) : s.playerPeriod p = (s.readHeldBack p).clipPeriod p := by
  simp [State.playerPeriod, State.readHeldBack, clip, lead, due]

theorem State.playerPeriod_of_played_out (clip : (s.player p).phase = .clip) (lead : (s.player p).lead = false)
    (out : (s.player p).clipLen ≤ (s.player p).cursor) : s.playerPeriod p = s.readHeldBack p := by
  simp [State.playerPeriod, State.readHeldBack, clip, lead, Nat.not_lt.mpr out]

theorem State.chimePeriod_of_some {g g' : Gen} (next : g.next s.mau.store = some g') :
    s.chimePeriod p g =
      s.turned p ⟨{ s.player p with gen := some g' }, [(.player p, g.samples)], [], [], none⟩ := by
  rw [← State.deliver_setPlayer_eq_turned]
  simp only [State.chimePeriod, next, State.deliver_player]

theorem State.chimePeriod_of_none {g : Gen} (next : g.next s.mau.store = none) :
    s.chimePeriod p g = (s.deliver (.player p) g.samples).enterClip p := by
  simp only [State.chimePeriod, next]

/-- A player's turn at a period start, as the statements give it, is what the model does. -/
theorem State.playerPeriod_eq_turn {inter : ZoneMask} {w : PlayerTurn}
    (held : ∀ z, inMask inter z = true ↔ inMask (s.player p).interrupted z = true
      ∨ inMask (s.player p).admitted z = true ∧ (s.zm.zones.get z).heldBack s.xu.mode = true)
    (turn : (s.player p).turn p s.mau.store inter w) :
    s.playerPeriod p = (s.turned p w).turnEnds (s.player p).origin w := by
  have read := State.readHeldBack_eq held
  obtain ⟨inFree, inChime, inClip⟩ := id turn
  cases phase : (s.player p).phase with
  | free =>
    rw [inFree phase, State.turned_idle, State.playerPeriod_of_free phase]
    exact s.issue_nil.symm
  | chime =>
    obtain ⟨ended, playing⟩ := inChime phase
    cases gen : (s.player p).gen with
    | none =>
      rw [ended gen, State.playerPeriod_of_chime_over phase gen, read]
      exact (State.issue_nil _).symm
    | some g =>
      obtain ⟨goes_on, enters⟩ := playing g gen
      rw [State.playerPeriod_of_chime phase gen, read]
      cases next : g.next s.mau.store with
      | some g' =>
        rw [goes_on g' next, State.chimePeriod_of_some (s := s.turned p _) next, State.turned_player, State.turned_turned]
        exact (State.issue_nil _).symm
      | none =>
        rw [enters next, State.chimePeriod_of_none (s := s.turned p _) next,
          State.enterClip_eq, State.deliver_setPlayer_eq_turned,
          State.turned_turned, State.deliver_player, State.turned_player]
        rfl
  | clip =>
    obtain ⟨leads, played_out, -⟩ := inClip phase
    cases lead : (s.player p).lead with
    | true =>
      rw [leads lead, State.playerPeriod_of_lead phase lead, read, State.turned_player, State.setPlayer_eq_turned,
        State.turned_turned]
      exact (State.issue_nil _).symm
    | false =>
      rcases Nat.lt_or_ge (s.player p).cursor (s.player p).clipLen with due | out
      · rw [PlayerRec.turn_eq_clipTurn turn phase lead due, State.playerPeriod_of_due phase lead due, read,
          State.clipPeriod_eq_turn, State.turned_player, State.turned_turned]
        rfl
      · rw [played_out lead out, State.playerPeriod_of_played_out phase lead out, read]
        exact (State.issue_nil _).symm

end

/-! ## The turns of all players -/

theorem State.sameBlocks_handOver? (s : State) (o : Option SlotIx) (c : Completion) :
    s.sameBlocks (s.handOver? o c) := by
  cases o with
  | none => exact .refl s
  | some k =>
    rw [State.handOver?, handOver_eq]
    exact ⟨rfl, rfl, rfl, rfl, rfl, rfl, rfl, rfl⟩

theorem State.sameBlocks_turnEnds (s : State) (o : Option Origin) (w : PlayerTurn) : s.sameBlocks (s.turnEnds o w) := by
  unfold State.turnEnds
  split
  · exact State.sameBlocks.trans ⟨rfl, rfl, rfl, rfl, rfl, rfl, rfl, rfl⟩ (State.sameBlocks_handOver? _ _ _)
  · exact ⟨rfl, rfl, rfl, rfl, rfl, rfl, rfl, rfl⟩

/-- A completion reads and writes XU and the port alone. -/
theorem State.handOver?_frame (s : State) (au : Au) (net : Net) (o : Option SlotIx) (c : Completion) :
    ({ s with au := au, net := net } : State).handOver? o c = { s.handOver? o c with au := au, net := net } := by
  cases o with
  | none => rfl
  | some k =>
    simp only [State.handOver?, handOver_eq]
    rfl

theorem State.turnEnds_frame (s : State) (au : Au) (net : Net) (o : Option Origin) (w : PlayerTurn) :
    ({ s with au := au, net := net } : State).turnEnds o w = { s.turnEnds o w with au := au, net := net } := by
  unfold State.turnEnds
  split
  · exact State.handOver?_frame (s.issue w.reads) au net _ _
  · rfl

/-- What a turn ends and fetches, and what it keeps and sends, do not read each other. -/
theorem State.turned_turnEnds (s : State) (p : Player) (o : Option Origin) (v w : PlayerTurn) :
    (s.turnEnds o v).turned p w = (s.turned p w).turnEnds o v := by
  obtain ⟨-, -, au, -, -, -, -, net⟩ := s.sameBlocks_turnEnds o v
  rw [State.turned, au, net]
  exact (s.turnEnds_frame _ _ o v).symm

/-- What the players' turns keep and send, all at once. -/
def State.allTurned (s : State) (turn : Player → PlayerTurn) : State :=
  { s with
    au :=
      { s.au with
        examPending := s.au.examPending || (List.finRange 4).any fun p => (turn p).done.isSome
        players := Table.build fun p => (turn p).after }
    net :=
      { s.net with
        auToZm := s.net.auToZm ++ (List.finRange 4).flatMap fun p => (turn p).sends
        deliveries := s.net.deliveries ++ (List.finRange 4).flatMap fun p => (turn p).out } }

theorem State.foldl_turned (s : State) (turn : Player → PlayerTurn) (l : List Player) :
    l.foldl (fun v p => v.turned p (turn p)) s =
      { s with
        au :=
          { s.au with
            examPending := s.au.examPending || l.any fun p => (turn p).done.isSome
            players := l.foldl (fun t p => t.set p (turn p).after) s.au.players }
        net :=
          { s.net with
            auToZm := s.net.auToZm ++ l.flatMap fun p => (turn p).sends
            deliveries := s.net.deliveries ++ l.flatMap fun p => (turn p).out } } := by
  induction l generalizing s with
  | nil => simp
  | cons p l ih =>
    rw [List.foldl_cons, ih]
    simp [State.turned, Bool.or_assoc]

theorem State.foldl_turned_all (s : State) (turn : Player → PlayerTurn) :
    (List.finRange 4).foldl (fun v p => v.turned p (turn p)) s = s.allTurned turn := by
  rw [State.foldl_turned, Table.foldl_set, State.allTurned]

/-- An event that gives each player in turn the turn `turn p`, reading of the part only what the other turns leave alone,
has what all turns keep and send, and then their ends in order. -/
theorem foldl_turns (f : State → Player → State) (turn : Player → PlayerTurn) (s : State)
    (touches : ∀ t p, TouchesPlayer p t (f t p))
    (takes : ∀ t p, TouchesPlayers s t → t.player p = s.player p →
      f t p = (t.turned p (turn p)).turnEnds (s.player p).origin (turn p)) :
    (List.finRange 4).foldl f s =
      (List.finRange 4).foldl (fun v p => v.turnEnds (s.player p).origin (turn p)) (s.allTurned turn) := by
  rw [← State.foldl_turned_all, ← foldl_split _ _ fun t p q => t.turned_turnEnds q (s.player p).origin (turn p) (turn q)]
  have key : ∀ (l : List Player) (t : State), l.Nodup → TouchesPlayers s t → (∀ p ∈ l, t.player p = s.player p) →
      l.foldl f t = l.foldl (fun v p => (v.turned p (turn p)).turnEnds (s.player p).origin (turn p)) t := by
    intro l
    induction l with
    | nil => exact fun _ _ _ _ => rfl
    | cons p l ih =>
      intro t nodup since as_was
      obtain ⟨not_mem, nodup⟩ := List.nodup_cons.mp nodup
      have touched := touches t p
      rw [List.foldl_cons, List.foldl_cons, ← takes t p since (as_was p List.mem_cons_self)]
      exact ih _ nodup (since.trans touched.toTouchesPlayers) fun q hq =>
        (touched.others q (ne_of_mem_of_not_mem hq not_mem)).trans (as_was q (List.mem_cons_of_mem p hq))
  exact key _ s (List.nodup_finRange 4) (.refl s) fun _ _ => rfl

/-! ## AU_PERIOD_START (R59, R61, R67) -/

/-- The players' part of a period start of AU. -/
theorem foldl_playerPeriod {s : State} {inter : Player → ZoneMask} {turn : Player → PlayerTurn}
    (held : ∀ p z, inMask (inter p) z = true ↔ inMask (s.player p).interrupted z = true
      ∨ inMask (s.player p).admitted z = true ∧ (s.zm.zones.get z).heldBack s.xu.mode = true)
    (turns : ∀ p, (s.player p).turn p s.mau.store (inter p) (turn p)) :
    (List.finRange 4).foldl State.playerPeriod s =
      (List.finRange 4).foldl (fun v p => v.turnEnds (s.player p).origin (turn p)) (s.allTurned turn) := by
  refine foldl_turns State.playerPeriod turn s touches_playerPeriod fun t p since as_was => ?_
  have mode : t.xu.mode = s.xu.mode := by rw [since.xu]
  rw [← as_was]
  refine State.playerPeriod_eq_turn (inter := inter p) ?_ ?_
  · rw [as_was, since.zm, mode]
    exact held p
  · rw [as_was, since.mau]
    exact turns p

/-- The ends of turns leave AU alone. -/
theorem State.modAu_foldl_turnEnds (s : State) (f : Au → Au) (o : Player → Option Origin) (turn : Player → PlayerTurn)
    (l : List Player) :
    (l.foldl (fun v p => v.turnEnds (o p) (turn p)) s).modAu f =
      l.foldl (fun v p => v.turnEnds (o p) (turn p)) (s.modAu f) := by
  refine (List.foldl_hom (State.modAu · f) fun v p => ?_).symm
  obtain ⟨-, -, au, -, -, -, -, net⟩ := v.sameBlocks_turnEnds (o p) (turn p)
  refine (v.turnEnds_frame (f v.au) v.net (o p) (turn p)).trans ?_
  rw [State.modAu, au, ← net]

theorem State.sameBlocks_foldl_turnEnds (s : State) (o : Player → Option Origin) (turn : Player → PlayerTurn)
    (l : List Player) : s.sameBlocks (l.foldl (fun v p => v.turnEnds (o p) (turn p)) s) :=
  foldl_keeps _ s.sameBlocks (fun v p same => same.trans (v.sameBlocks_turnEnds (o p) (turn p))) l s (.refl s)

/-- Entries that have run out leave the list, and the slots of those that have one complete (R67). -/
theorem State.expireEntries_eq (s : State) :
    s.expireEntries =
      (s.au.waitList.filter fun e => decide (e.expiry = some 0)).foldl
        (fun v e => v.handOver? e.origin.slot? (.done .expired (.announcement 0 0 0 0)))
        (s.modAu fun a => { a with waitList := a.waitList.filter fun e => decide (e.expiry ≠ some 0) }) := by
  simp only [decide_not]
  rfl

theorem exec_auPeriodStart_settles {s : State} (idle : s.au.exam = none) :
    ∃ t, exec .auPeriodStart s = .next t
      ∧ (((List.finRange 4).foldl State.playerPeriod s).modAu fun a =>
          { a with waitList := a.waitList.map Entry.aged }).expireEntries.settles t := by
  have run : exec .auPeriodStart s = execAuPeriodStart s := rfl
  rw [run, execAuPeriodStart]
  exact event_settles (freeToAct_of_none idle) rfl

/-- Settles O42: the turns are those of `State.playerPeriod`, and the entries that go are those `State.expireEntries`
drops. -/
theorem auPeriodStartPlaysAndExpires : Obligations.AuPeriodStartPlaysAndExpires := by
  intro s u inter turn aged ends idle hinter turns haged hends hu
  have hends (o v c) : ends o v c = v.handOver? (o.bind Origin.slot?) c :=
    (hends o v c).trans (State.handOver?_origin v o c).symm
  have held : ∀ p z, inMask (inter p) z = true ↔ inMask (s.player p).interrupted z = true
      ∨ inMask (s.player p).admitted z = true ∧ (s.zm.zones.get z).heldBack s.xu.mode = true := fun p z => by
    rw [ZoneRec.heldBack_iff]
    exact hinter p z
  obtain ⟨t, taken, settled⟩ := exec_auPeriodStart_settles idle
  refine ⟨t, taken, ?_⟩
  obtain ⟨-, -, au, -⟩ := ((s.allTurned turn).modAu fun a =>
    { a with waitList := a.waitList.map Entry.aged }).sameBlocks_foldl_turnEnds (fun p => (s.player p).origin) turn
      (List.finRange 4)
  rw [foldl_playerPeriod held turns, State.modAu_foldl_turnEnds, State.expireEntries_eq, au,
    State.modAu_foldl_turnEnds] at settled
  subst hu haged
  simp only [hends]
  exact settled

/-! ## Ends, expiries and fetches by themselves (R56, R58, R60, R62, R67) -/

theorem decodeWords_get (b : Table 192 Byte) (n : Fin 48) :
    (decodeWords b).get n = (fieldBits b (4 * n.val) 4).toInt := Table.get_build _ n

/-- A fetched period is clamped sample by sample (R26). -/
theorem clampWords_decodeWords {b : Table 192 Byte} {x : Period}
    (h : ∀ n : Fin 48, x.get n = max (-8388608) (min 8388607 (fieldBits b (4 * n.val) 4).toInt)) :
    clampWords (decodeWords b) = x :=
  Table.ext_get fun n => by
    rw [h, clampWords, Table.get_update, decodeWords_get]
    rfl

/-- One entry alone has run out (R67). -/
theorem State.expireEntries_of_one {s : State} {before after : List Entry} {e : Entry}
    (list : s.au.waitList = before ++ e :: after) (out : e.expiry = some 0)
    (others : ∀ x ∈ before ++ after, x.expiry ≠ some 0) :
    s.expireEntries =
      ({ s with au := { s.au with waitList := before ++ after } } : State).handOver? e.origin.slot?
        (.done .expired (.announcement 0 0 0 0)) := by
  obtain ⟨goes, stay⟩ := filter_only (p := Entry.expired) (e := e) (before := before) (after := after)
    (by simp [Entry.expired, out]) fun x hx => by simp [Entry.expired, others x hx]
  simp only [State.expireEntries, list, goes, State.modAu, stay]
  rfl

section
variable {s : State} {p : Player} {i start : Nat}

theorem State.clipFetched_of_stale (b : BusRead 192) (stale : start ≠ (s.player p).startNumber ∨ (s.player p).phase = .free) :
    s.clipFetched p i start b = s :=
  if_pos (stale.imp_left Ne.symm)

/-- A clip fetch of the start in force that came without error (R58). -/
theorem State.clipFetched_of_data {b : Table 192 Byte} {x : Period} (current : start = (s.player p).startNumber)
    (plays : (s.player p).phase ≠ .free) (words : clampWords (decodeWords b) = x) :
    s.clipFetched p i start (.data b) =
      if i < (s.player p).cursor then s
      else if i = (s.player p).cursor then s.setPlayer p { s.player p with mark0 := .complete x }
      else if i = (s.player p).cursor + 1 then s.setPlayer p { s.player p with mark1 := .complete x }
      else s.setPlayer p (s.player p) := by
  subst words
  refine (if_neg (not_or.mpr ⟨not_not.mpr current.symm, plays⟩)).trans ?_
  dsimp only
  unfold PlayerRec.store
  split_ifs <;> rfl

theorem State.clipFetched_of_busError (current : start = (s.player p).startNumber) (plays : (s.player p).phase ≠ .free) :
    s.clipFetched p i start .busError = s.endPlayer p .aborted :=
  (if_neg (not_or.mpr ⟨not_not.mpr current.symm, plays⟩)).trans (State.stopPlayer_of_plays plays .aborted)

theorem exec_clipFetchComplete_settles {u : State} {b : BusRead 192} (idle : s.au.exam = none)
    (reads : s.inProgress = some (.clip p i start)) (made : s.portFreed.clipFetched p i start b = u) :
    ∃ t, exec (.clipFetchComplete b) s = .next t ∧ u.settles t := by
  have run : exec (.clipFetchComplete b) s = execClipFetchComplete b s := rfl
  simp only [run, execClipFetchComplete, reads]
  exact event_settles (freeToAct_of_none idle) made

theorem exec_clipEnd_settles {u : State} (idle : s.au.exam = none) (clip : (s.player p).phase = .clip)
    (played_out : (s.player p).clipLen ≤ (s.player p).cursor) (made : s.endPlayer p (s.player p).endOutcome = u) :
    ∃ t, exec (.clipEnd p) s = .next t ∧ u.settles t := by
  have run : exec (.clipEnd p) s = execClipEnd p s := rfl
  rw [run, execClipEnd]
  exact event_settles (by simp [freeToAct_of_none idle, clip, played_out]) made

theorem exec_playerChimeEnd_settles {u : State} (idle : s.au.exam = none) (chime : (s.player p).phase = .chime)
    (gen : (s.player p).gen = none) (made : s.enterClip p = u) :
    ∃ t, exec (.playerChimeEnd p) s = .next t ∧ u.settles t := by
  have run : exec (.playerChimeEnd p) s = execPlayerChimeEnd p s := rfl
  rw [run, execPlayerChimeEnd]
  exact event_settles (by simp [freeToAct_of_none idle, chime, gen]) made

theorem exec_entryExpiry_settles {u : State} {e : Entry} (idle : s.au.exam = none) (waits : e ∈ s.au.waitList)
    (out : e.expiry = some 0) (made : s.expireEntries = u) :
    ∃ t, exec .entryExpiry s = .next t ∧ u.settles t := by
  have run : exec .entryExpiry s = execEntryExpiry s := rfl
  have due : s.au.waitList.any Entry.expired = true := List.any_eq_true.mpr ⟨e, waits, by simp [Entry.expired, out]⟩
  rw [run, execEntryExpiry]
  exact event_settles (by simp [freeToAct_of_none idle, due]) made

end

/-- Settles O43: each event is the model's operation on the player or the list, as the lemmas above give it. -/
theorem announcementEventsEndAndFetch : Obligations.AnnouncementEventsEndAndFetch := by
  intro s ends idle hends
  have hends (o v c) : ends o v c = v.handOver? (o.bind Origin.slot?) c :=
    (hends o v c).trans (State.handOver?_origin v o c).symm
  simp only [hends]
  refine ⟨?clipEnd, ?chimeEnd, ?expiry, ?fetch⟩
  case clipEnd =>
    rintro p r heard rfl clip played_out rfl
    exact exec_clipEnd_settles idle clip played_out (s.endPlayer_eq_handOver p _)
  case chimeEnd =>
    rintro p r rfl chime gen
    exact exec_playerChimeEnd_settles idle chime gen (s.enterClip_eq p)
  case expiry =>
    intro before after e list out others
    exact exec_entryExpiry_settles idle (list ▸ List.mem_append_right before List.mem_cons_self) out
      (State.expireEntries_of_one list out others)
  case fetch =>
    rintro p i start r reads rfl
    refine ⟨fun b stale => ?_, fun current plays => ⟨fun b x samples => ?_, ?_⟩⟩
    · exact exec_clipFetchComplete_settles idle reads (State.clipFetched_of_stale b stale)
    · have fetched := State.clipFetched_of_data (s := s.portFreed) (i := i) current plays
        (clampWords_decodeWords samples)
      refine ⟨fun late => ?_, fun at_cursor => ?_, fun ahead => ?_⟩ <;>
        refine exec_clipFetchComplete_settles idle reads (fetched.trans ?_)
      · exact if_pos late
      · exact (if_neg (Nat.not_lt.mpr at_cursor.ge)).trans (if_pos at_cursor)
      · have beyond : (s.player p).cursor < i := ahead ▸ Nat.lt_succ_self _
        exact (if_neg beyond.not_gt).trans ((if_neg beyond.ne').trans (if_pos ahead))
    · have stopped := State.clipFetched_of_busError (s := s.portFreed) (i := i) current plays
      exact exec_clipFetchComplete_settles idle reads (stopped.trans (s.portFreed.endPlayer_eq_handOver p .aborted))

/-! ## Every player stopped (R63, R128) -/

theorem State.handOver?_shadow (s : State) (o : Option SlotIx) (c : Completion) (k : SlotIx) :
    (s.handOver? o c).xu.shadows.get k = if o = some k then .finished c else s.xu.shadows.get k := by
  cases o with
  | none => rfl
  | some j =>
    rw [State.handOver?, handOver_eq, State.completed]
    simp only [Table.get_set, Option.some.injEq, eq_comm]

theorem Origin.slot?_eq_some {o : Option Origin} {k : SlotIx} : o.bind Origin.slot? = some k ↔ o = some (.slot k) := by
  rcases o with _ | j | n <;> simp [Origin.slot?]

theorem State.turnEnds_shadow (s : State) (o : Option Origin) (w : PlayerTurn) (k : SlotIx) :
    (s.turnEnds o w).xu.shadows.get k =
      match w.done with
      | some c => if o = some (.slot k) then .finished c else s.xu.shadows.get k
      | none => s.xu.shadows.get k := by
  unfold State.turnEnds
  split
  · rw [State.handOver?_shadow]
    exact if_congr Origin.slot?_eq_some rfl rfl
  · rfl

theorem PlayerRec.stopTurn_of_free {r : PlayerRec} {p : Player} {o : JobOutcome} (free : r.phase = .free) :
    r.stopTurn p o = ⟨r, [], [], [], none⟩ := if_pos free

theorem PlayerRec.stopTurn_of_plays {r : PlayerRec} {p : Player} {o : JobOutcome} (plays : r.phase ≠ .free) :
    r.stopTurn p o = r.ended p o := if_neg plays

section
variable (s : State) (o : JobOutcome)

theorem State.stopPlayers_eq :
    s.stopPlayers o =
      (List.finRange 4).foldl (fun v p => v.turnEnds (s.player p).origin ((s.player p).stopTurn p o))
        (s.allTurned fun p => (s.player p).stopTurn p o) :=
  foldl_turns (fun t p => t.stopPlayer o p) _ s (fun t p => touches_stopPlayer t p o) fun t p _ as_was => by
    rw [← as_was]
    exact t.stopPlayer_eq_turn p o

theorem State.sameBlocks_stopPlayers : (s.allTurned fun p => (s.player p).stopTurn p o).sameBlocks (s.stopPlayers o) := by
  rw [State.stopPlayers_eq]
  exact State.sameBlocks_foldl_turnEnds _ (fun p => (s.player p).origin) _ _

theorem State.touches_stopPlayers : TouchesPlayers s (s.stopPlayers o) :=
  foldl_keeps _ (TouchesPlayers s) (fun t p since => since.trans (touches_stopPlayer t p o).toTouchesPlayers) _ s (.refl s)

/-- What the players that play release. -/
def State.playersRelease (s : State) : List ZmMsg :=
  ((List.finRange 4).filter fun p => decide ((s.player p).phase ≠ .free)).map fun p =>
    .release (.programmed p) (s.player p).admitted

theorem State.flatMap_stopTurn_sends :
    ((List.finRange 4).flatMap fun p => ((s.player p).stopTurn p o).sends) = s.playersRelease := by
  unfold State.playersRelease
  induction List.finRange 4 with
  | nil => rfl
  | cons p l ih =>
    by_cases free : (s.player p).phase = .free
    · rw [List.flatMap_cons, ih, PlayerRec.stopTurn_of_free free, List.filter_cons_of_neg (by simp [free])]
      rfl
    · rw [List.flatMap_cons, ih, PlayerRec.stopTurn_of_plays free, List.filter_cons_of_pos (by simp [free])]
      rfl

theorem PlayerRec.stopTurn_out (r : PlayerRec) (p : Player) : (r.stopTurn p o).out = [] := by
  unfold PlayerRec.stopTurn
  split <;> rfl

theorem State.stopPlayers_net : (s.stopPlayers o).net = { s.net with auToZm := s.net.auToZm ++ s.playersRelease } := by
  obtain ⟨-, -, -, -, -, -, -, net⟩ := s.sameBlocks_stopPlayers o
  simp [net, State.allTurned, State.flatMap_stopTurn_sends, PlayerRec.stopTurn_out]

end

section
variable {s : State} {o : JobOutcome} {p : Player}

theorem State.stopPlayers_player : (s.stopPlayers o).player p = ((s.player p).stopTurn p o).after := by
  obtain ⟨-, -, au, -⟩ := s.sameBlocks_stopPlayers o
  rw [State.player, au]
  exact Table.get_build _ p

theorem State.stopPlayers_player_of_free (free : (s.player p).phase = .free) :
    (s.stopPlayers o).player p = s.player p := by
  rw [State.stopPlayers_player, PlayerRec.stopTurn_of_free free]

theorem State.stopPlayers_player_of_plays (plays : (s.player p).phase ≠ .free) :
    (s.stopPlayers o).player p = (s.player p).freed := by
  rw [State.stopPlayers_player, PlayerRec.stopTurn_of_plays plays]
  rfl

theorem State.stopPlayers_examPending (plays : (s.player p).phase ≠ .free) :
    (s.stopPlayers o).au.examPending = true := by
  obtain ⟨-, -, au, -⟩ := s.sameBlocks_stopPlayers o
  have ends : ((s.player p).stopTurn p o).done.isSome = true := by
    rw [PlayerRec.stopTurn_of_plays plays]
    rfl
  rw [au]
  exact Bool.or_eq_true_iff.mpr (.inr (List.any_eq_true.mpr ⟨p, List.mem_finRange p, ends⟩))

/-- The slot of a player that is stopped completes, where no other player plays for it. -/
theorem State.stopPlayers_shadow {k : SlotIx} (plays : (s.player p).phase ≠ .free)
    (origin : (s.player p).origin = some (.slot k))
    (alone : ∀ q, q ≠ p → (s.player q).phase = .free ∨ (s.player q).origin ≠ some (.slot k)) :
    (s.stopPlayers o).xu.shadows.get k = .finished (.done o (s.player p).results) := by
  rw [State.stopPlayers_eq]
  refine foldl_get_of_mem (get := fun v : State => v.xu.shadows.get k) (q := (· = p)) ?_ ?_ ⟨p, List.mem_finRange p, rfl⟩ _
  · rintro _ _ rfl v
    rw [State.turnEnds_shadow, PlayerRec.stopTurn_of_plays plays]
    exact if_pos origin
  · intro q _ other v
    rw [State.turnEnds_shadow]
    rcases alone q other with free | elsewhere
    · rw [PlayerRec.stopTurn_of_free free]
    · simp only [if_neg elsewhere]
      split <;> rfl

end

/-- What becomes of player `p` where every player is stopped. -/
theorem State.stopPlayers_at (s : State) (o : JobOutcome) (p : Player) :
    ((s.player p).phase = .free → (s.stopPlayers o).player p = s.player p)
    ∧ ((s.player p).phase ≠ .free →
        (s.stopPlayers o).player p = (s.player p).freed ∧ (s.stopPlayers o).au.examPending = true
        ∧ ∀ k, (s.player p).origin = some (.slot k) →
            (∀ q, q ≠ p → (s.player q).phase = .free ∨ (s.player q).origin ≠ some (.slot k)) →
            (s.stopPlayers o).xu.shadows.get k = .finished (.done o (s.player p).results)) :=
  ⟨State.stopPlayers_player_of_free, fun plays => ⟨State.stopPlayers_player_of_plays plays,
    State.stopPlayers_examPending plays, fun _ origin alone => State.stopPlayers_shadow plays origin alone⟩⟩

/-! ## Preemption (R128, R129) -/

theorem Net.stageClaimWaits_iff (n : Net) :
    n.stageClaimWaits = true ↔ ∃ k m st, .claim (.alarm .stage) k m st ∈ n.mauToZm := by
  rw [Net.stageClaimWaits, List.any_eq_true]
  constructor
  · rintro ⟨x, mem, is_stage⟩
    split at is_stage
    · exact ⟨_, _, _, mem⟩
    · exact absurd is_stage Bool.false_ne_true
  · rintro ⟨k, m, st, mem⟩
    exact ⟨_, mem, rfl⟩

theorem exec_preemption_waits {s : State} (waits : s.net.stageClaimWaits = true) : exec .preemption s = .next s := by
  have run : exec .preemption s = execPreemption s := rfl
  rw [run, execPreemption, waits, Bool.not_true, Bool.and_false, event_not_due]

theorem exec_preemption_settles {s : State} {n : Nat} (idle : s.au.exam = none) (counted : s.net.preemptions = n + 1)
    (free : s.net.stageClaimWaits = false) :
    ∃ t, exec .preemption s = .next t
      ∧ ((s.modNet fun m => { m with preemptions := n }).stopPlayers .preempted).settles t := by
  have run : exec .preemption s = execPreemption s := rfl
  rw [run, execPreemption]
  refine event_settles (by simp [freeToAct_of_none idle, counted, free]) ?_
  rw [show n = s.net.preemptions - 1 by omega]
  rfl

/-! ## AU_TEARDOWN (R63, R199) -/

theorem State.sameBlocks_foldl_dropEntry (s : State) (o : JobOutcome) (l : List Entry) :
    s.sameBlocks (l.foldl (fun v e => v.dropEntry o e) s) :=
  foldl_keeps _ s.sameBlocks (fun v e same => same.trans (v.sameBlocks_handOver? e.origin.slot? (.done o .unplayed))) l s
    (.refl s)

theorem State.dropEntry_shadow (s : State) (o : JobOutcome) (e : Entry) (k : SlotIx) :
    (s.dropEntry o e).xu.shadows.get k =
      if e.origin = .slot k then .finished (.done o .unplayed) else s.xu.shadows.get k := by
  rw [State.dropEntry, State.handOver?_shadow]
  refine if_congr ?_ rfl rfl
  exact Origin.slot?_eq_some (o := some e.origin).trans (by rw [Option.some.injEq])

section
variable {s : State} {k : SlotIx}

theorem State.auTornDown_eq (s : State) :
    s.auTornDown =
      s.au.waitList.foldl (fun v e => v.dropEntry .aborted e)
        ((s.stopPlayers .aborted).modAu fun a => { a with waitList := [] }) := by
  rw [State.auTornDown]
  simp only [(s.touches_stopPlayers .aborted).waitList]

theorem State.sameBlocks_auTornDown (s : State) :
    ((s.stopPlayers .aborted).modAu fun a => { a with waitList := [] }).sameBlocks s.auTornDown := by
  rw [State.auTornDown_eq]
  exact State.sameBlocks_foldl_dropEntry _ _ _

/-- What AU's part of a teardown leaves, and what it sends. -/
theorem State.auTornDown_rest (s : State) :
    s.auTornDown.pending = s.pending ∧ s.auTornDown.zm = s.zm ∧ s.auTornDown.ic = s.ic ∧ s.auTornDown.mau = s.mau
      ∧ s.auTornDown.su = s.su ∧ s.auTornDown.lp = s.lp
      ∧ s.auTornDown.net = { s.net with auToZm := s.net.auToZm ++ s.playersRelease }
      ∧ s.auTornDown.au.waitList = [] ∧ s.auTornDown.au.exam = s.au.exam
      ∧ s.auTornDown.au.examPending = (s.stopPlayers .aborted).au.examPending
      ∧ s.auTornDown.au.players = (s.stopPlayers .aborted).au.players := by
  obtain ⟨pending, zm, au, ic, mau, su, lp, net⟩ := s.sameBlocks_auTornDown
  have touched := s.touches_stopPlayers .aborted
  rw [pending, zm, au, ic, mau, su, lp, net]
  simp only [State.modAu_pending, State.modAu_zm, State.modAu_au, State.modAu_ic, State.modAu_mau, State.modAu_su,
    State.modAu_lp, State.modAu_net, touched.pending, touched.zm, touched.ic, touched.mau, touched.su, touched.lp,
    touched.exam, State.stopPlayers_net, and_self]

/-- The slot of an entry completes with nothing played, whatever player stopped for it. -/
theorem State.auTornDown_shadow_of_entry {e : Entry} (waits : e ∈ s.au.waitList) (origin : e.origin = .slot k) :
    s.auTornDown.xu.shadows.get k = .finished (.done .aborted .unplayed) := by
  rw [State.auTornDown_eq]
  refine foldl_get_of_mem (get := fun v : State => v.xu.shadows.get k) (q := fun e : Entry => e.origin = .slot k)
    (fun x _ named v => ?_) (fun x _ other v => ?_) ⟨e, waits, origin⟩ _
  · rw [State.dropEntry_shadow, if_pos named]
  · rw [State.dropEntry_shadow, if_neg other]

theorem State.auTornDown_shadow_of_no_entry (none_waits : ∀ e ∈ s.au.waitList, e.origin ≠ .slot k) :
    s.auTornDown.xu.shadows.get k = (s.stopPlayers .aborted).xu.shadows.get k := by
  rw [State.auTornDown_eq]
  refine (foldl_get_of_keeps (get := fun v : State => v.xu.shadows.get k) (fun e waits v => ?_) _).trans ?_
  · rw [State.dropEntry_shadow, if_neg (none_waits e waits)]
  · rw [State.modAu_xu]

/-- What becomes of player `p` at AU's part of a teardown. -/
theorem State.auTornDown_at (s : State) (p : Player) :
    ((s.player p).phase = .free → s.auTornDown.player p = s.player p)
    ∧ ((s.player p).phase ≠ .free →
        s.auTornDown.player p = (s.player p).freed ∧ s.auTornDown.au.examPending = true
        ∧ ∀ k, (s.player p).origin = some (.slot k) → (∀ e ∈ s.au.waitList, e.origin ≠ .slot k) →
            (∀ q, q ≠ p → (s.player q).phase = .free ∨ (s.player q).origin ≠ some (.slot k)) →
            s.auTornDown.xu.shadows.get k = .finished (.done .aborted (s.player p).results)) := by
  obtain ⟨-, -, -, -, -, -, -, -, -, mark, players⟩ := s.auTornDown_rest
  have same : s.auTornDown.player p = (s.stopPlayers .aborted).player p := congrArg (Table.get · p) players
  rw [same, mark]
  obtain ⟨of_free, of_plays⟩ := s.stopPlayers_at .aborted p
  refine ⟨of_free, fun plays => ?_⟩
  obtain ⟨freed, pends, shadow⟩ := of_plays plays
  refine ⟨freed, pends, fun k origin none_waits alone => ?_⟩
  rw [State.auTornDown_shadow_of_no_entry none_waits]
  exact shadow k origin alone

end

theorem exec_auTeardown_settles {s : State} {q : List XuPart} (idle : s.au.exam = none)
    (handed : s.net.xuToAu = .teardown :: q) :
    ∃ t, exec .auTeardown s = .next t ∧ (s.modNet fun n => n.auTookTeardown q).auTornDown.settles t := by
  have run : exec .auTeardown s = execAuTeardown s := rfl
  simp only [run, execAuTeardown, handed]
  exact event_settles (freeToAct_of_none idle) rfl

/-! ## IS_TEARDOWN (R94, R110, R199) -/

/-- What the end of a page sends ZM (R108). -/
def pageEndSends (c : Channel) (p : Option PageRec) : List ZmMsg :=
  match p with
  | some p => [.release (pageClaim p.cls c) p.admitted, .pageChannel c none]
  | none => []

theorem State.releasePage_eq (s : State) (c : Channel) :
    s.releasePage c =
      { s with
        ic := { s.ic with channels := s.ic.channels.set c none }
        net := { s.net with isToZm := s.net.isToZm ++ pageEndSends c (s.ic.channels.get c) } } := by
  unfold State.releasePage
  cases used : s.ic.channels.get c with
  | none => simp [pageEndSends, ← used, Table.set_get_self]
  | some p => simp [pageEndSends, State.sendZm, State.modNet, State.modIc, Net.setToZm, Net.toZm]

/-- The part with IS's channels and stations, and what IS has sent ZM, as given. -/
def State.icWith (s : State) (channels : Table 8 (Option PageRec)) (stations : Table 64 StationRec) (sent : List ZmMsg) :
    State :=
  { s with
    ic := { s.ic with channels := channels, stations := stations }
    net := { s.net with isToZm := sent } }

theorem State.icWith_self (s : State) : s.icWith s.ic.channels s.ic.stations s.net.isToZm = s := rfl

/-- Every page ends (R110). -/
theorem State.foldl_releasePage (s : State) :
    (List.finRange 8).foldl State.releasePage s =
      s.icWith (Table.fill 8 none) s.ic.stations
        (s.net.isToZm ++ (List.finRange 8).flatMap fun c => pageEndSends c (s.ic.channels.get c)) := by
  have all_free : (s.ic.channels.update fun _ _ => none) = Table.fill 8 (none : Option PageRec) :=
    Table.ext_get fun c => by rw [Table.get_update, Table.get_fill]
  have folded := foldl_set_send (fun channels sent => s.icWith channels s.ic.stations sent) (fun _ _ => none) pageEndSends
    (fun channels sent c => (s.icWith channels s.ic.stations sent).releasePage_eq c) s.ic.channels s.net.isToZm
  rwa [all_free, State.icWith_self] at folded

/-- A station that is not OFFLINE, at a teardown (R94). -/
def StationRec.tornDown (r : StationRec) : StationRec :=
  if r.standing = .offline then r else { r with standing := .idle .quiet, waiting := [] }

/-- What a teardown of a station sends ZM: that it leaves a conversation, if it stood in one (R92). -/
def StationRec.tearDownSends (st : Station) (r : StationRec) : List ZmMsg :=
  match r.standing with
  | .talking _ | .group _ => [.standing st .none]
  | _ => []

/-- A teardown of one station. -/
def State.tearDownStation (s : State) (st : Station) : State :=
  if (s.station st).standing.online then (s.modStation st fun r => { r with waiting := [] }).setIdle .quiet st else s

theorem StationRec.tearDownSends_eq (st : Station) (r : StationRec) :
    r.tearDownSends st = if r.standing.conv = .none then [] else [.standing st .none] := by
  unfold StationRec.tearDownSends
  cases r.standing <;> rfl

theorem Standing.online_iff (v : Standing) : v.online = true ↔ v ≠ .offline := by
  cases v <;> simp [Standing.online]

/-- A station that is OFFLINE stands in no conversation and stays as it is. -/
theorem State.tearDownStation_eq (s : State) (st : Station) :
    s.tearDownStation st =
      { s with
        ic := { s.ic with stations := s.ic.stations.set st (s.ic.stations.get st).tornDown }
        net := { s.net with isToZm := s.net.isToZm ++ (s.ic.stations.get st).tearDownSends st } } := by
  unfold State.tearDownStation
  rw [StationRec.tearDownSends_eq, StationRec.tornDown]
  simp only [State.station, Standing.online_iff]
  by_cases offline : (s.ic.stations.get st).standing = .offline
  · simp [offline, Standing.conv, Table.set_get_self]
  · by_cases apart : (s.ic.stations.get st).standing.conv = .none <;>
      simp [offline, apart, State.setIdle, State.setStanding, State.modStation, State.modIc, State.sendZm, State.modNet,
        Net.setToZm, Net.toZm, State.station, Table.modify_eq, show (Standing.idle .quiet).conv = .none from rfl]

/-- Every station that is not OFFLINE becomes IDLE (R94). -/
theorem State.foldl_tearDownStation (s : State) :
    (List.finRange 64).foldl State.tearDownStation s =
      s.icWith s.ic.channels (s.ic.stations.update fun _ r => r.tornDown)
        (s.net.isToZm ++ (List.finRange 64).flatMap fun st => (s.ic.stations.get st).tearDownSends st) := by
  have folded := foldl_set_send (fun stations sent => s.icWith s.ic.channels stations sent) (fun _ r => r.tornDown)
    (fun st r => r.tearDownSends st)
    (fun stations sent st => (s.icWith s.ic.channels stations sent).tearDownStation_eq st) s.ic.stations s.net.isToZm
  rwa [State.icWith_self] at folded

theorem State.icTornDown_eq (s : State) :
    s.icTornDown =
      s.icWith (Table.fill 8 none) (s.ic.stations.update fun _ r => r.tornDown)
        (s.net.isToZm ++ ((List.finRange 8).flatMap fun c => pageEndSends c (s.ic.channels.get c))
          ++ (List.finRange 64).flatMap fun st => (s.ic.stations.get st).tearDownSends st) := by
  have torn : s.icTornDown =
      (List.finRange 64).foldl State.tearDownStation ((List.finRange 8).foldl State.releasePage s) := rfl
  rw [torn, State.foldl_releasePage, State.foldl_tearDownStation]
  rfl

theorem exec_isTeardown_settles {s : State} {q : List XuPart} (idle : s.ic.awaiting = none)
    (handed : s.net.xuToIs = .teardown :: q) :
    ∃ t, exec .isTeardown s = .next t ∧ (s.modNet fun n => { n with xuToIs := q }).icTornDown.settles t := by
  have run : exec .isTeardown s = execIsTeardown s := rfl
  simp only [run, execIsTeardown, handed]
  exact event_settles (by rw [Ic.freeToAct, idle]; rfl) rfl

/-! ## Preemption and teardowns -/

theorem State.settles.shadows {u t : State} (h : u.settles t) : t.xu.shadows = u.xu.shadows := by
  obtain ⟨-, xu, -, -⟩ := h
  rw [xu]

/-- Settles O35: the players are those of `State.stopPlayers`, the entries those `State.auTornDown` drops, the stations those
of `State.icTornDown`. -/
theorem teardownsAndPreemptionEndWork : Obligations.TeardownsAndPreemptionEndWork := by
  rintro s _ rfl
  refine ⟨fun n idle counted => ⟨fun waits => ?_, fun none_waits => ?_⟩, fun q idle handed => ?_,
    fun q idle handed => ?_⟩
  · exact exec_preemption_waits (s.net.stageClaimWaits_iff.mpr waits)
  · have free : s.net.stageClaimWaits = false := by
      rw [Bool.eq_false_iff, Ne, Net.stageClaimWaits_iff]
      exact fun ⟨k, m, st, mem⟩ => none_waits k m st mem
    obtain ⟨t, taken, settled⟩ := exec_preemption_settles idle counted free
    have touched := (s.modNet fun m => { m with preemptions := n }).touches_stopPlayers .preempted
    refine ⟨t, taken, settled.pending.trans touched.pending, settled.zm.trans touched.zm, settled.ic.trans touched.ic,
      settled.mau.trans touched.mau, settled.su.trans touched.su, settled.lp.trans touched.lp,
      settled.net.trans (State.stopPlayers_net _ _), ?_, ?_, ?_⟩
    · rw [settled.au]
      exact touched.waitList
    · rw [settled.au]
      exact touched.exam.trans idle
    · rintro p r rfl
      rw [settled.au, settled.shadows]
      exact (s.modNet fun m => { m with preemptions := n }).stopPlayers_at .preempted p
  · obtain ⟨t, taken, settled⟩ := exec_auTeardown_settles idle handed
    obtain ⟨pending, zm, ic, mau, su, lp, net, emptied, exam, -, -⟩ :=
      (s.modNet fun m => m.auTookTeardown q).auTornDown_rest
    refine ⟨t, taken, settled.pending.trans pending, settled.zm.trans zm, settled.ic.trans ic, settled.mau.trans mau,
      settled.su.trans su, settled.lp.trans lp, settled.net.trans (net.trans ?_), ?_, ?_, ?_, ?_⟩
    · simp only [State.modNet_net, Net.auTookTeardown_eq]
      split <;> rfl
    · rw [settled.au, emptied]
    · rw [settled.au, exam]
      exact idle
    · intro e waits k origin
      rw [settled.shadows]
      exact State.auTornDown_shadow_of_entry waits origin
    · rintro p r rfl
      rw [settled.au, settled.shadows]
      exact (s.modNet fun m => m.auTookTeardown q).auTornDown_at p
  · obtain ⟨t, taken, settled⟩ := exec_isTeardown_settles idle handed
    rw [State.icTornDown_eq] at settled
    exact ⟨t, taken, settled⟩

end Sys2Proof.Machine

/-! PROOFS. The statements of the crew intercom (Chapter 4): station events, calls, waiting lists, party lines, the intercom
requests, timers, the conditions of the station ports, and the conversation structure that every step keeps. -/

namespace Sys2Proof.Machine

/-! ## What IS sends ZM -/

section
variable (s : State) (ms : List ZmMsg)

@[simp] theorem State.isSends_xu : (s.isSends ms).xu = s.xu := rfl
@[simp] theorem State.isSends_ic : (s.isSends ms).ic = s.ic := rfl
@[simp] theorem State.isSends_zm : (s.isSends ms).zm = s.zm := rfl
@[simp] theorem State.isSends_mau : (s.isSends ms).mau = s.mau := rfl

@[simp] theorem State.isSends_nil : s.isSends [] = s := by
  simp [State.isSends]

@[simp] theorem State.isSends_isSends (ns : List ZmMsg) : (s.isSends ms).isSends ns = s.isSends (ms ++ ns) := by
  simp [State.isSends]

end

/-! ## One station's standing (R73, R92) -/

@[simp] theorem State.station_eq (s : State) (st : Station) : s.station st = s.ic.stations.get st := rfl

section
variable (s : State) (a : Station) (v : Standing)

@[simp] theorem State.standingSet_xu : (s.standingSet a v).xu = s.xu := rfl
@[simp] theorem State.standingSet_zm : (s.standingSet a v).zm = s.zm := rfl
@[simp] theorem State.standingSet_mau : (s.standingSet a v).mau = s.mau := rfl
@[simp] theorem State.standingSet_net : (s.standingSet a v).net = s.net := rfl

theorem State.standingSet_ic :
    (s.standingSet a v).ic =
      { s.ic with stations := s.ic.stations.set a { s.ic.stations.get a with standing := v } } := rfl

theorem State.standingSet_standing (b : Station) :
    ((s.standingSet a v).ic.stations.get b).standing = if b = a then v else (s.ic.stations.get b).standing := by
  rw [State.standingSet_ic, Table.get_set]
  split <;> rfl

@[simp] theorem State.standingSet_waiting (b : Station) :
    ((s.standingSet a v).ic.stations.get b).waiting = (s.ic.stations.get b).waiting := by
  rw [State.standingSet_ic, Table.get_set]
  split
  · subst_vars; rfl
  · rfl

theorem State.standingSet_isSends (ms : List ZmMsg) :
    (s.isSends ms).standingSet a v = (s.standingSet a v).isSends ms := rfl

/-- A station that changes its standing sends ZM its standing in the conversation structure, if that changed. -/
theorem State.setStanding_eq :
    s.setStanding a v =
      (s.standingSet a v).isSends
        (if (s.ic.stations.get a).standing.conv = v.conv then [] else [.standing a v.conv]) := by
  unfold State.setStanding
  rw [State.station_eq]
  split
  · rw [State.isSends_nil]; rfl
  · rfl

variable {s a v}

theorem State.setStanding_of_same (same : (s.ic.stations.get a).standing.conv = v.conv) :
    s.setStanding a v = s.standingSet a v := by
  rw [State.setStanding_eq, if_pos same, State.isSends_nil]

theorem State.setStanding_of_change (change : (s.ic.stations.get a).standing.conv ≠ v.conv) :
    s.setStanding a v = (s.standingSet a v).isSends [.standing a v.conv] := by
  rw [State.setStanding_eq, if_neg change]

/-- A station outside a conversation enters IDLE with nothing to tell ZM. -/
theorem State.setIdle_of_apart {n : IdleNotice} (apart : (s.ic.stations.get a).standing.conv = .none) :
    s.setIdle n a = s.standingSet a (.idle n) := State.setStanding_of_same apart

end

theorem State.connect_eq (s : State) (a b : Station) :
    s.connect a b = ((s.standingSet a (.talking b)).standingSet b (.talking a)).isSends [.talking a b] := rfl

/-- The station stands in no conversation that ZM is told of (R92). -/
def State.apart (s : State) (a : Station) : Prop := (s.ic.stations.get a).standing.conv = .none

/-- A station that rings another one: neither tells ZM. -/
theorem State.ring_eq {s : State} {w b : Station} (caller : s.apart w) (called : s.apart b) (other : b ≠ w) :
    s.ring w b = (s.standingSet w (.calling b)).standingSet b (.ringing w s.ic.ringTimeout) := by
  have called' : (s.standingSet w (.calling b)).apart b := by
    rw [State.apart, State.standingSet_standing, if_neg other]
    exact called
  rw [State.ring, State.setStanding_of_same (v := .calling b) caller,
    State.setStanding_of_same (v := .ringing w s.ic.ringTimeout) called']

/-! ## Waiting lists (R73, R85, R86) -/

/-- `s` with the waiting list of station `a` replaced. -/
def State.listSet (s : State) (a : Station) (l : List Station) : State :=
  { s with ic := { s.ic with stations := s.ic.stations.set a { s.ic.stations.get a with waiting := l } } }

section
variable (s : State) (a b : Station) (l : List Station)

@[simp] theorem State.listSet_xu : (s.listSet a l).xu = s.xu := rfl
@[simp] theorem State.listSet_net : (s.listSet a l).net = s.net := rfl

theorem State.listSet_ic :
    (s.listSet a l).ic =
      { s.ic with stations := s.ic.stations.set a { s.ic.stations.get a with waiting := l } } := rfl

@[simp] theorem State.listSet_standing :
    ((s.listSet a l).ic.stations.get b).standing = (s.ic.stations.get b).standing := by
  rw [State.listSet_ic, Table.get_set]
  split
  · subst_vars; rfl
  · rfl

theorem State.listSet_waiting :
    ((s.listSet a l).ic.stations.get b).waiting = if b = a then l else (s.ic.stations.get b).waiting := by
  rw [State.listSet_ic, Table.get_set]
  split <;> rfl

theorem State.unqueue_eq :
    s.unqueue b a = s.listSet a ((s.ic.stations.get a).waiting.filter fun x => decide (x ≠ b)) := rfl

end

/-- The station is IDLE. -/
def State.stationIdle (s : State) (a : Station) : Prop := ∃ n, (s.ic.stations.get a).standing = .idle n

/-- The station waits on another. -/
def State.waitsOn (s : State) (a o : Station) : Prop := ∃ n, (s.ic.stations.get a).standing = .waiting o n

theorem State.stationIdle.apart {s : State} {a : Station} (idle : s.stationIdle a) : s.apart a := by
  obtain ⟨n, idle⟩ := idle
  rw [State.apart, idle]
  rfl

theorem State.waitsOn.apart {s : State} {a o : Station} (waits : s.waitsOn a o) : s.apart a := by
  obtain ⟨n, waits⟩ := waits
  rw [State.apart, waits]
  rfl

theorem State.stationIdle.not_waitsOn {s : State} {a o : Station} (idle : s.stationIdle a) : ¬s.waitsOn a o := by
  rintro ⟨k, waits⟩
  obtain ⟨n, idle⟩ := idle
  exact Standing.noConfusion (idle.symm.trans waits)

theorem State.serve_of_nil {s : State} {a : Station} (h : (s.ic.stations.get a).waiting = []) : s.serve a = s := by
  rw [State.serve, State.station_eq, h]

theorem State.serve_of_cons {s : State} {a x : Station} {rest : List Station}
    (h : (s.ic.stations.get a).waiting = x :: rest) : s.serve a = (s.listSet a rest).ring x a := by
  rw [State.serve, State.station_eq, h]
  rfl

theorem State.served_of_nil {s : State} {a : Station} (h : (s.ic.stations.get a).waiting = []) : s.served a = s := by
  rw [State.served, h]

theorem State.served_of_cons {s : State} {a x : Station} {rest : List Station}
    (h : (s.ic.stations.get a).waiting = x :: rest) (other : x ≠ a) :
    s.served a =
      ((s.listSet a rest).standingSet x (.calling a)).standingSet a (.ringing x s.ic.ringTimeout) := by
  simp [State.served, h, State.standingSet, State.listSet, other, other.symm, Table.set_comm _ _ _ other]

/-- An IDLE station serves its list with nothing to tell ZM. -/
theorem State.serve_eq_served {s : State} {a : Station} (idle : s.stationIdle a) (wait : s.callersWait a) :
    s.serve a = s.served a := by
  cases list : (s.ic.stations.get a).waiting with
  | nil => rw [State.serve_of_nil list, State.served_of_nil list]
  | cons x rest =>
    have waits : s.waitsOn x a := wait x (by rw [list]; exact List.mem_cons_self)
    have other : x ≠ a := fun e => idle.not_waitsOn (e ▸ waits)
    rw [State.serve_of_cons list, State.served_of_cons list other, State.ring_eq _ _ other.symm]
    · rfl
    · rw [State.apart, State.listSet_standing]; exact waits.apart
    · rw [State.apart, State.listSet_standing]; exact idle.apart

/-- A list served leaves another station as it was, unless it waited on this one. -/
theorem State.served_get {s : State} {a b : Station} (other : b ≠ a) (stays : ¬s.waitsOn b a) (wait : s.callersWait a) :
    (s.served a).ic.stations.get b = s.ic.stations.get b := by
  cases list : (s.ic.stations.get a).waiting with
  | nil => rw [State.served_of_nil list]
  | cons x rest =>
    have caller : b ≠ x := fun e => stays (e ▸ wait x (by rw [list]; exact List.mem_cons_self))
    simp [State.served, list, other, caller]

/-! ## Leaving (R83 to R86, R89, R108) -/

/-- `callersWait` reads the standings of those on the list only. -/
theorem State.callersWait.mono {s t : State} {a : Station} (wait : s.callersWait a)
    (list : (t.ic.stations.get a).waiting = (s.ic.stations.get a).waiting)
    (keeps : ∀ x, s.waitsOn x a → t.waitsOn x a) : t.callersWait a := by
  intro x hx
  rw [list] at hx
  exact keeps x (wait x hx)

theorem State.waitsOn_standingSet {s : State} {a x o : Station} {v : Standing} (waits : s.waitsOn x o) (other : x ≠ a) :
    (s.standingSet a v).waitsOn x o := by
  rw [State.waitsOn, State.standingSet_standing, if_neg other]
  exact waits

theorem State.stationIdle_standingSet_self (s : State) (a : Station) (n : IdleNotice) :
    (s.standingSet a (.idle n)).stationIdle a := ⟨n, by rw [State.standingSet_standing, if_pos rfl]⟩

theorem State.stationIdle_standingSet {s : State} {a b : Station} {v : Standing} (idle : s.stationIdle b) (other : b ≠ a) :
    (s.standingSet a v).stationIdle b := by
  rw [State.stationIdle, State.standingSet_standing, if_neg other]
  exact idle

/-- A station that does not wait on `o` enters IDLE: those on the list of `o` wait on it still. -/
theorem State.callersWait_standingSet {s : State} {a o : Station} {v : Standing} (wait : s.callersWait o)
    (not_caller : ¬s.waitsOn a o) : (s.standingSet a v).callersWait o :=
  wait.mono (State.standingSet_waiting ..) fun _ waits =>
    State.waitsOn_standingSet waits fun e => not_caller (e ▸ waits)

theorem State.not_waitsOn_of {s : State} {a : Station} {v : Standing} (stands : (s.ic.stations.get a).standing = v)
    (other : ∀ o n, v ≠ .waiting o n) (o : Station) : ¬s.waitsOn a o :=
  fun ⟨n, waits⟩ => other o n (stands.symm.trans waits)

/-- Two stations that are IDLE serve their lists. -/
theorem State.serve_serve_eq_served {s : State} {a b : Station} (other : b ≠ a) (idle_a : s.stationIdle a)
    (idle_b : s.stationIdle b) (wait_a : s.callersWait a) (wait_b : s.callersWait b) :
    (s.serve a).serve b = (s.served a).served b := by
  have kept : (s.served a).ic.stations.get b = s.ic.stations.get b := State.served_get other idle_b.not_waitsOn wait_a
  have idle : (s.served a).stationIdle b := by rw [State.stationIdle, kept]; exact idle_b
  have wait : (s.served a).callersWait b := by
    refine wait_b.mono (by rw [kept]) fun x waits => ?_
    by_cases self : x = a
    · exact absurd (self ▸ waits) idle_a.not_waitsOn
    · have elsewhere : ¬s.waitsOn x a := by
        rintro ⟨n, there⟩
        obtain ⟨m, here⟩ := waits
        exact other (Standing.waiting.inj (here.symm.trans there)).1
      rw [State.waitsOn, State.served_get self elsewhere wait_a]
      exact waits
  rw [State.serve_eq_served idle_a wait_a, State.serve_eq_served idle wait]

/-- The parties of a call that ends, IDLE, before they serve their lists (R83, R84). -/
theorem State.partCall_eq {s : State} {a b : Station} {nb : IdleNotice} (other : b ≠ a) (wait_a : s.callersWait a)
    (wait_b : s.callersWait b) (stays_a : ∀ o, ¬s.waitsOn a o) (stays_b : ∀ o, ¬s.waitsOn b o) :
    s.partCall a b nb =
      ((((s.standingSet a (.idle .quiet)).standingSet b (.idle nb)).isSends
          ((if (s.ic.stations.get a).standing.conv = .none then [] else [.standing a .none])
            ++ if (s.ic.stations.get b).standing.conv = .none then [] else [.standing b .none])).served a).served b := by
  have idle_b := (s.standingSet a (.idle .quiet)).stationIdle_standingSet_self b nb
  have idle_a := State.stationIdle_standingSet (v := .idle nb) (s.stationIdle_standingSet_self a .quiet) other.symm
  have wait {o : Station} (wait : s.callersWait o) :
      ((s.standingSet a (.idle .quiet)).standingSet b (.idle nb)).callersWait o := by
    refine State.callersWait_standingSet (State.callersWait_standingSet wait (stays_a o)) ?_
    rw [State.waitsOn, State.standingSet_standing, if_neg other]
    exact stays_b o
  rw [State.partCall, State.setIdle, State.setIdle, State.setStanding_eq, State.setStanding_eq, State.isSends_ic,
    State.standingSet_standing, if_neg other, State.standingSet_isSends, State.isSends_isSends]
  exact State.serve_serve_eq_served other idle_a idle_b (wait wait_a) (wait wait_b)

/-- The station enters IDLE and serves its list. -/
theorem State.setIdle_serve {s : State} {a : Station} {n : IdleNotice} (wait : s.callersWait a)
    (stays : ¬s.waitsOn a a) :
    (s.setIdle n a).serve a =
      ((s.standingSet a (.idle n)).isSends
        (if (s.ic.stations.get a).standing.conv = .none then [] else [.standing a .none])).served a := by
  rw [State.setIdle, State.setStanding_eq]
  exact State.serve_eq_served (s.stationIdle_standingSet_self a n) (State.callersWait_standingSet wait stays)

/-- A waiter leaves the list it stands on and enters IDLE (R85, R87, R89). -/
theorem State.unqueue_setIdle_serve {s : State} {a o : Station} {k : Nat} (n : IdleNotice) (other : o ≠ a)
    (stands : (s.ic.stations.get a).standing = .waiting o k) (wait : s.callersWait a) :
    ((s.unqueue a o).setIdle n a).serve a =
      ((s.listSet o ((s.ic.stations.get o).waiting.filter fun x => decide (x ≠ a))).standingSet a (.idle n)).served
        a := by
  have stands' : ((s.unqueue a o).ic.stations.get a).standing = .waiting o k := by
    rw [State.unqueue_eq, State.listSet_standing, stands]
  have wait' : (s.unqueue a o).callersWait a := by
    refine wait.mono (by rw [State.unqueue_eq, State.listSet_waiting, if_neg other.symm]) fun x waits => ?_
    rw [State.waitsOn, State.unqueue_eq, State.listSet_standing]
    exact waits
  have stays : ¬(s.unqueue a o).waitsOn a a := fun ⟨j, waits⟩ =>
    other (Standing.waiting.inj (stands'.symm.trans waits)).1
  rw [State.setIdle_serve wait' stays, stands', show (Standing.waiting o k).conv = .none from rfl, if_pos rfl,
    State.isSends_nil, State.unqueue_eq]

/-- A page ends (R108). -/
theorem State.releasePage_of_some {s : State} {c : Channel} {p : PageRec} (used : s.ic.channels.get c = some p) :
    s.releasePage c = s.pageEnded c p := by
  rw [State.releasePage_eq, used]
  cases cls : p.cls <;> simp [State.pageEnded, State.isSends, pageEndSends, pageClaim, cls]

theorem State.endPage_eq {s : State} {a : Station} {c : Channel} {p : PageRec}
    (stands : (s.ic.stations.get a).standing = .paging c) (used : s.ic.channels.get c = some p) (wait : s.callersWait a) :
    s.endPage c a = ((s.standingSet a (.idle .quiet)).pageEnded c p).served a := by
  have stands' : ((s.pageEnded c p).ic.stations.get a).standing = .paging c := stands
  have wait' : (s.pageEnded c p).callersWait a := wait
  rw [State.endPage, State.releasePage_of_some used,
    State.setIdle_serve wait' (State.not_waitsOn_of stands' (fun _ _ => Standing.noConfusion) a), stands',
    show (Standing.paging c).conv = .none from rfl, if_pos rfl, State.isSends_nil]
  rfl

/-- What CLEAR makes of a station that is in something is the state that `leaves` names. -/
theorem State.clearStation_of_leaves {s u : State} {a : Station} (leaves : s.leaves u a) : s.clearStation a = u := by
  obtain ⟨wait, ⟨b, notice, other, wait_b, ⟨calls, ⟨n, rings⟩, rfl⟩ | ⟨⟨n, rings⟩, calls, rfl⟩, rfl⟩
    | ⟨b, other, wait_b, talks, talks_b, rfl⟩ | ⟨o, n, other, waits, rfl⟩ | ⟨g, joined, rfl⟩ | ⟨c, p, pages, used, rfl⟩⟩ := leaves
  case inl.inl =>
    simp only [State.clearStation, State.station_eq, calls]
    rw [State.partCall_eq other wait wait_b (State.not_waitsOn_of calls fun _ _ => Standing.noConfusion)
      (State.not_waitsOn_of rings fun _ _ => Standing.noConfusion), calls, rings]
    simp [Standing.conv]
  case inl.inr =>
    simp only [State.clearStation, State.station_eq, rings]
    rw [State.partCall_eq other wait wait_b (State.not_waitsOn_of rings fun _ _ => Standing.noConfusion)
      (State.not_waitsOn_of calls fun _ _ => Standing.noConfusion), calls, rings]
    simp [Standing.conv]
  case inr.inl =>
    simp only [State.clearStation, State.station_eq, talks]
    rw [State.partCall_eq other wait wait_b (State.not_waitsOn_of talks fun _ _ => Standing.noConfusion)
      (State.not_waitsOn_of talks_b fun _ _ => Standing.noConfusion), talks, talks_b]
    simp [Standing.conv]
  case inr.inr.inl =>
    simp only [State.clearStation, State.station_eq, waits]
    rw [State.unqueue_setIdle_serve .quiet other waits wait]
    simp [State.standingSet, State.listSet, other.symm]
  case inr.inr.inr.inl =>
    simp only [State.clearStation, State.station_eq, joined]
    rw [State.setIdle_serve wait (State.not_waitsOn_of joined (fun _ _ => Standing.noConfusion) a), joined]
    simp [Standing.conv]
  case inr.inr.inr.inr =>
    simp only [State.clearStation, State.station_eq, pages]
    exact State.endPage_eq pages used wait

end Sys2Proof.Machine

namespace Sys2Proof.Machine

/-! ## Station events (R74 to R76) -/

theorem Ic.freeToAct_of_none {c : Ic} (free : c.awaiting = none) : c.freeToAct = true := by
  rw [Ic.freeToAct, free]
  rfl

theorem State.wordOf_of_head {s : State} {st : Station} {w : ControlWord} {q : List IsMsg}
    (head : s.net.stationToIs.get (stationPort st).ix = .word st w :: q) : s.wordOf st = some w := by
  rw [State.wordOf, head]
  exact if_pos rfl

theorem State.tookStation_of_head {s : State} {p : StationPort} {m : IsMsg} {q : List IsMsg}
    (head : s.net.stationToIs.get p.ix = m :: q) :
    s.tookStation p = { s with net := { s.net with stationToIs := s.net.stationToIs.set p.ix q } } := by
  simp only [State.tookStation, State.modNet, Table.modify_eq, head, List.tail_cons]

theorem StationRec.took_eq (r : StationRec) (k : BitVec 4) :
    r.took k =
      { r with
        counter := some k
        standing :=
          match r.standing with
          | .idle _ => .idle .quiet
          | v => v } := by
  obtain ⟨_, _, _, standing, _, _, _⟩ := r
  cases standing <;> rfl

section
variable {s : State} {st : Station} {w : ControlWord} {q : List IsMsg} {fits : ControlWord → Bool} {act : State → State}

/-- The taking of a fresh word. -/
theorem State.took_eq_wordTaken (head : s.net.stationToIs.get (stationPort st).ix = .word st w :: q) :
    ((s.tookStation (stationPort st)).modStation st fun r => r.took w.counter) = s.wordTaken st w q := by
  simp only [State.tookStation_of_head head, State.modStation, State.modIc, Table.modify_eq, StationRec.took_eq]
  rfl

/-- A fresh word that fits an event is taken, and the event acts on what that leaves. -/
theorem stationEvent_settles {u : State} (fresh : s.freshWord st w q) (fit : fits w = true)
    (acts : act (s.wordTaken st w q) = u) : ∃ t, stationEvent st fits s act = .next t ∧ u.settles t := by
  obtain ⟨free, online, head, c, counter, repeats⟩ := fresh
  have online : (s.ic.stations.get st).standing.online = true := (Standing.online_iff _).mpr online
  simp only [stationEvent, State.wordOf_of_head head, fit, Ic.freeToAct_of_none free, State.station_eq, online, counter,
    repeats, State.took_eq_wordTaken head, acts, Bool.and_self, Bool.not_true, if_true, if_false, Bool.false_eq_true]
  exact settle_settles s u

/-- A word of an OFFLINE station, or one that repeats the counter last taken, is taken and does nothing (R75). -/
theorem stationEvent_discards (free : s.ic.awaiting = none)
    (head : s.net.stationToIs.get (stationPort st).ix = .word st w :: q) (fit : fits w = true)
    (stale : (s.ic.stations.get st).standing = .offline ∨ (s.ic.stations.get st).counter = some w.counter) :
    ∃ t, stationEvent st fits s act = .next t
      ∧ ({ s with net := { s.net with stationToIs := s.net.stationToIs.set (stationPort st).ix q } } : State).settles t := by
  rw [← State.tookStation_of_head head]
  simp only [stationEvent, State.wordOf_of_head head, fit, Ic.freeToAct_of_none free, State.station_eq, Bool.and_self,
    if_true]
  by_cases online : (s.ic.stations.get st).standing = .offline
  · simp only [online, Standing.online, Bool.not_false, if_true]
    exact settle_settles s _
  · have counter := stale.resolve_left online
    simp only [(Standing.online_iff _).mpr online, counter, Bool.not_true, if_true, if_false, Bool.false_eq_true]
    exact settle_settles s _

end

section
variable (s : State) (st b : Station) (w : ControlWord) (q : List IsMsg)

@[simp] theorem State.wordTaken_xu : (s.wordTaken st w q).xu = s.xu := rfl
@[simp] theorem State.wordTaken_zm : (s.wordTaken st w q).zm = s.zm := rfl
@[simp] theorem State.wordTaken_mau : (s.wordTaken st w q).mau = s.mau := rfl

/-- A word taken clears a notice and moves no station. -/
theorem State.wordTaken_standing :
    ((s.wordTaken st w q).ic.stations.get b).standing =
      if b = st then
        match (s.ic.stations.get st).standing with
        | .idle _ => .idle .quiet
        | v => v
      else (s.ic.stations.get b).standing := by
  rw [State.wordTaken, Table.get_set]
  split <;> rfl

@[simp] theorem State.wordTaken_waiting :
    ((s.wordTaken st w q).ic.stations.get b).waiting = (s.ic.stations.get b).waiting := by
  rw [State.wordTaken, Table.get_set]
  split
  · subst_vars; rfl
  · rfl

@[simp] theorem State.wordTaken_authority :
    ((s.wordTaken st w q).ic.stations.get b).authority = (s.ic.stations.get b).authority := by
  rw [State.wordTaken, Table.get_set]
  split
  · subst_vars; rfl
  · rfl

@[simp] theorem State.wordTaken_groups :
    ((s.wordTaken st w q).ic.stations.get b).groups = (s.ic.stations.get b).groups := by
  rw [State.wordTaken, Table.get_set]
  split
  · subst_vars; rfl
  · rfl

variable {s st b w q}

theorem State.wordTaken_get_ne (other : b ≠ st) : (s.wordTaken st w q).ic.stations.get b = s.ic.stations.get b :=
  Table.get_set_ne _ _ other

theorem State.wordTaken_standing_of_idle {n : IdleNotice} (idle : (s.ic.stations.get st).standing = .idle n) :
    ((s.wordTaken st w q).ic.stations.get st).standing = .idle .quiet := by
  rw [State.wordTaken_standing, if_pos rfl, idle]

/-- A station that is not IDLE stands, its word taken, as it stood. -/
theorem State.wordTaken_standing_of_not_idle (busy : ∀ n, (s.ic.stations.get st).standing ≠ .idle n) :
    ((s.wordTaken st w q).ic.stations.get st).standing = (s.ic.stations.get st).standing := by
  rw [State.wordTaken_standing, if_pos rfl]
  split
  case h_1 => exact absurd ‹_› (busy _)
  case h_2 => rfl

end

theorem Mode.denies_of {m : Mode} (h : m = .standby ∨ m = .service) : m.denies = true := by
  rcases h with rfl | rfl <;> rfl

theorem Mode.denies_of_not {m : Mode} (h : m = .normal ∨ m = .night) : m.denies = false := by
  rcases h with rfl | rfl <;> rfl

theorem Mode.denies_iff (m : Mode) : m.denies = true ↔ m = .standby ∨ m = .service := by
  simp [Mode.denies]

theorem Standing.isIdle_iff (v : Standing) : v.isIdle = true ↔ ∃ n, v = .idle n := by
  cases v <;> simp [Standing.isIdle]

theorem Standing.isIdle_of_not {v : Standing} (busy : ∀ n, v ≠ .idle n) : v.isIdle = false := by
  rw [Bool.eq_false_iff, Ne, Standing.isIdle_iff]
  exact fun ⟨n, stands⟩ => busy n stands

/-- An IDLE station denied tells ZM nothing. -/
theorem State.deny_eq {s : State} {a : Station} (idle : s.stationIdle a) :
    s.deny a = s.standingSet a (.idle .busyDenied) := State.setIdle_of_apart idle.apart

/-! ## CALL, ANSWER, CLEAR (R80 to R89) -/

section
variable {s : State} {a b : Station} {target : Nat}

theorem State.placeCall_of_denied (idle : s.stationIdle a)
    (denied : s.xu.mode = .standby ∨ s.xu.mode = .service ∨ 63 < target ∨ target = a.val
      ∨ ∃ b : Station, b.val = target ∧ (s.ic.stations.get b).standing = .offline) :
    s.placeCall a target = s.standingSet a (.idle .busyDenied) := by
  rw [← State.deny_eq idle, State.placeCall]
  by_cases mode : s.xu.mode.denies = true
  · rw [if_pos mode]
  · rw [if_neg mode]
    rcases denied with h | h | out | rfl | ⟨b, rfl, offline⟩
    · exact absurd (Mode.denies_of (.inl h)) mode
    · exact absurd (Mode.denies_of (.inr h)) mode
    · rw [index_none (Nat.not_lt.mpr out)]
    · rw [index_some a rfl]
      exact if_pos rfl
    · rw [index_some b rfl]
      simp only [State.station_eq, offline, ite_self]

variable (mode : s.xu.mode = .normal ∨ s.xu.mode = .night) (named : b.val = target) (other : b ≠ a)
include mode named other

theorem State.placeCall_of_idle (caller : s.stationIdle a) (called : s.stationIdle b) :
    s.placeCall a target = (s.standingSet a (.calling b)).standingSet b (.ringing a s.ic.ringTimeout) := by
  rw [← State.ring_eq caller.apart called.apart other]
  obtain ⟨n, called⟩ := called
  simp [State.placeCall, Mode.denies_of_not mode, index_some b named, other, called]

theorem State.placeCall_of_busy (caller : s.stationIdle a) (online : (s.ic.stations.get b).standing ≠ .offline)
    (busy : ∀ n, (s.ic.stations.get b).standing ≠ .idle n) :
    s.placeCall a target =
      if 4 ≤ (s.ic.stations.get b).waiting.length then s.standingSet a (.idle .busyDenied)
      else
        (s.listSet b ((s.ic.stations.get b).waiting ++ [a])).standingSet a (.waiting b s.ic.waitTimeout) := by
  have caller' : (s.listSet b ((s.ic.stations.get b).waiting ++ [a])).apart a := by
    rw [State.apart, State.listSet_standing]
    exact caller.apart
  rw [← State.deny_eq caller, ← State.setStanding_of_same (v := .waiting b s.ic.waitTimeout) caller']
  simp only [State.placeCall, Mode.denies_of_not mode, index_some b named, if_neg other, State.station_eq,
    Bool.false_eq_true, if_false]
  cases stands : (s.ic.stations.get b).standing with
  | offline => exact absurd stands online
  | idle n => exact absurd stands (busy n)
  | _ => rfl

end

section
variable {s : State} {a b : Station} {n target : Nat}

theorem State.takeCall_of_idle (idle : s.stationIdle a) : s.takeCall a target = s.placeCall a target := by
  obtain ⟨n, idle⟩ := idle
  rw [State.takeCall, State.station_eq, idle]

theorem State.takeCall_of_ringing (rings : (s.ic.stations.get a).standing = .ringing b n) :
    s.takeCall a target = if target = b.val then s.connect a b else s := by
  rw [State.takeCall, State.station_eq, rings]

theorem State.takeCall_of_other (busy : ∀ m, (s.ic.stations.get a).standing ≠ .idle m)
    (quiet : ∀ b n, (s.ic.stations.get a).standing ≠ .ringing b n) : s.takeCall a target = s := by
  rw [State.takeCall, State.station_eq]
  split
  · exact absurd ‹_› (busy _)
  · exact absurd ‹_› (quiet _ _)
  · rfl

theorem State.takeAnswer_of_ringing (rings : (s.ic.stations.get a).standing = .ringing b n) :
    s.takeAnswer a = s.connect a b := by
  rw [State.takeAnswer, State.station_eq, rings]

theorem State.takeAnswer_of_other (quiet : ∀ b n, (s.ic.stations.get a).standing ≠ .ringing b n) :
    s.takeAnswer a = s := by
  rw [State.takeAnswer, State.station_eq]
  split
  · exact absurd ‹_› (quiet _ _)
  · rfl

theorem State.clearStation_of_idle (idle : s.stationIdle a) : s.clearStation a = s := by
  obtain ⟨n, idle⟩ := idle
  rw [State.clearStation, State.station_eq, idle]

end

theorem exec_call_settles {s u : State} {st : Station} {w : ControlWord} {q : List IsMsg} (fresh : s.freshWord st w q)
    (event : w.event = 1) (acts : (s.wordTaken st w q).takeCall st w.arg.toNat = u) :
    ∃ t, exec (.call st w.arg) s = .next t ∧ u.settles t := by
  have run : exec (.call st w.arg) s = execCall st w.arg s := rfl
  rw [run, execCall]
  exact stationEvent_settles fresh (by simp [event]) acts

theorem exec_answer_settles {s u : State} {st : Station} {w : ControlWord} {q : List IsMsg} (fresh : s.freshWord st w q)
    (event : w.event = 2) (acts : (s.wordTaken st w q).takeAnswer st = u) :
    ∃ t, exec (.answer st) s = .next t ∧ u.settles t := by
  have run : exec (.answer st) s = execAnswer st s := rfl
  rw [run, execAnswer]
  exact stationEvent_settles fresh (by simp [event]) acts

theorem exec_clear_settles {s u : State} {st : Station} {w : ControlWord} {q : List IsMsg} (fresh : s.freshWord st w q)
    (event : w.event = 3) (acts : (s.wordTaken st w q).clearStation st = u) :
    ∃ t, exec (.clear st) s = .next t ∧ u.settles t := by
  have run : exec (.clear st) s = execClear st s := rfl
  rw [run, execClear]
  exact stationEvent_settles fresh (by simp [event]) acts

/-- Settles O44: each event acts on the state with its word taken, by the equations of `placeCall`, `connect` and
`clearStation`. -/
theorem callAnswerAndClearMoveStations : Obligations.CallAnswerAndClearMoveStations := by
  rintro s v st w q r fresh hv rfl
  have idle {m} (h : (s.ic.stations.get st).standing = .idle m) : v.stationIdle st :=
    ⟨_, hv ▸ State.wordTaken_standing_of_idle h⟩
  have kept (h : ∀ m, (s.ic.stations.get st).standing ≠ .idle m) :
      (v.ic.stations.get st).standing = (s.ic.stations.get st).standing :=
    hv ▸ State.wordTaken_standing_of_not_idle h
  have rung {b n} (h : (s.ic.stations.get st).standing = .ringing b n) :
      (v.ic.stations.get st).standing = .ringing b n :=
    (kept fun m idle => Standing.noConfusion (h.symm.trans idle)).trans h
  have rest {b} (other : b ≠ st) : v.ic.stations.get b = s.ic.stations.get b := hv ▸ State.wordTaken_get_ne other
  have xu : v.xu = s.xu := hv ▸ rfl
  have ring : v.ic.ringTimeout = s.ic.ringTimeout := hv ▸ rfl
  have wait : v.ic.waitTimeout = s.ic.waitTimeout := hv ▸ rfl
  refine ⟨fun event => ?call, fun event => ?answer, fun event => ?clear⟩
  case call =>
    have calls {u : State} (acts : v.takeCall st w.arg.toNat = u) : ∃ t, exec (.call st w.arg) s = .next t ∧ u.settles t :=
      exec_call_settles fresh event (hv ▸ acts)
    refine ⟨fun m stands => ⟨fun denied => calls ?denied, fun mode b named other => ⟨fun n called => calls ?rings,
      fun online busy => ⟨fun full => calls ?full, fun room => calls ?waits⟩⟩⟩,
      fun b n rings _ _ => ⟨fun named => calls ?connects, fun elsewhere => calls ?elsewhere⟩,
      fun busy quiet => calls ?nothing⟩
    case denied =>
      rw [State.takeCall_of_idle (idle stands)]
      refine State.placeCall_of_denied (idle stands) ?_
      rw [xu]
      refine denied.imp_right (.imp_right (.imp_right (.imp_right fun ⟨b, named, offline⟩ => ⟨b, named, ?_⟩)))
      rw [rest fun e => ?_, offline]
      exact Standing.noConfusion ((e ▸ offline).symm.trans stands)
    case rings =>
      rw [State.takeCall_of_idle (idle stands), ← ring]
      exact State.placeCall_of_idle (xu ▸ mode) named other (idle stands) ⟨n, by rw [rest other, called]⟩
    case full =>
      rw [State.takeCall_of_idle (idle stands), State.placeCall_of_busy (xu ▸ mode) named other (idle stands), rest other,
        if_pos full]
      · rwa [rest other]
      · rwa [rest other]
    case waits =>
      rw [State.takeCall_of_idle (idle stands), State.placeCall_of_busy (xu ▸ mode) named other (idle stands), rest other,
        if_neg (Nat.not_le.mpr room)]
      · simp only [State.standingSet, State.listSet, Table.get_set_ne _ _ other.symm, rest other, wait]
      · rwa [rest other]
      · rwa [rest other]
    case connects => rw [State.takeCall_of_ringing (rung rings), if_pos named, State.connect_eq]
    case elsewhere => rw [State.takeCall_of_ringing (rung rings), if_neg elsewhere]
    case nothing => exact State.takeCall_of_other (kept busy ▸ busy) (kept busy ▸ quiet)
  case answer =>
    refine ⟨fun b n rings _ _ => exec_answer_settles fresh event ?_, fun quiet => exec_answer_settles fresh event ?_⟩
    · rw [← hv, State.takeAnswer_of_ringing (rung rings), State.connect_eq]
    · rw [← hv]
      refine State.takeAnswer_of_other fun b n rings => ?_
      by_cases busy : ∀ m, (s.ic.stations.get st).standing ≠ .idle m
      · exact quiet b n ((kept busy).symm.trans rings)
      · obtain ⟨m, stands⟩ := not_forall_not.mp busy
        obtain ⟨k, stands⟩ := idle stands
        exact Standing.noConfusion (stands.symm.trans rings)
  case clear =>
    exact ⟨fun m stands => exec_clear_settles fresh event (hv ▸ State.clearStation_of_idle (idle stands)),
      fun u leaves => exec_clear_settles fresh event (hv ▸ State.clearStation_of_leaves leaves)⟩

end Sys2Proof.Machine

namespace Sys2Proof.Machine

/-! ## GROUP_JOIN, PAGE, talk keys and the reference word (R75, R76, R79, R88, R100, R101) -/

section
variable {s : State} {a : Station} {group : Nat}

theorem State.joinGroup_of_busy (busy : ∀ n, (s.ic.stations.get a).standing ≠ .idle n) : s.joinGroup a group = s := by
  simp only [State.joinGroup, State.station_eq, Standing.isIdle_of_not busy, Bool.not_false, if_true]

theorem State.stationIdle.isIdle (idle : s.stationIdle a) : (s.ic.stations.get a).standing.isIdle = true :=
  (Standing.isIdle_iff _).mpr idle

theorem State.joinGroup_of_denied (idle : s.stationIdle a)
    (denied : s.xu.mode = .standby ∨ s.xu.mode = .service ∨ 7 < group
      ∨ ∃ g : Group, g.val = group ∧ (s.ic.stations.get a).groups.getLsbD g.val = false) :
    s.joinGroup a group = s.standingSet a (.idle .busyDenied) := by
  rw [← State.deny_eq idle]
  simp only [State.joinGroup, State.station_eq, idle.isIdle, Bool.not_true, Bool.false_eq_true, if_false]
  by_cases mode : s.xu.mode.denies = true
  · rw [if_pos mode]
  · rw [if_neg mode]
    rcases denied with h | h | out | ⟨g, rfl, bit⟩
    · exact absurd (Mode.denies_of (.inl h)) mode
    · exact absurd (Mode.denies_of (.inr h)) mode
    · rw [index_none (Nat.not_lt.mpr out)]
    · simp only [index_some g rfl, bit, Bool.false_eq_true, if_false]

theorem State.joinGroup_of_member {g : Group} (idle : s.stationIdle a) (mode : s.xu.mode = .normal ∨ s.xu.mode = .night)
    (named : g.val = group) (bit : (s.ic.stations.get a).groups.getLsbD g.val = true) :
    s.joinGroup a group = (s.standingSet a (.group g)).isSends [.standing a (.group g)] := by
  have change : (s.ic.stations.get a).standing.conv ≠ (Standing.group g).conv := by
    rw [show (s.ic.stations.get a).standing.conv = .none from idle.apart]
    exact ConvStanding.noConfusion
  rw [show ConvStanding.group g = (Standing.group g).conv from rfl, ← State.setStanding_of_change change]
  simp only [State.joinGroup, State.station_eq, idle.isIdle, Mode.denies_of_not mode, index_some g named, bit,
    Bool.not_true, Bool.false_eq_true, if_false, if_true]

end

theorem pageClass_eq_ev (e : Bool) (a : Authority) (stage : Stage) :
    pageClass e a stage = .ev ↔ e = true ∧ a = .bridge ∧ stage ≠ .idle := by
  have cond : (e && decide (a = .bridge) && decide (stage ≠ .idle)) = true ↔ e = true ∧ a = .bridge ∧ stage ≠ .idle := by
    simp [and_assoc]
  rw [← cond, pageClass]
  split <;> simp_all

theorem PageClass.eq_of_iff_ev {k l : PageClass} (h : k = .ev ↔ l = .ev) : k = l := by
  cases k <;> cases l <;> simp_all

theorem pageDenied_iff (k : PageClass) (a : Authority) (m : Mode) :
    pageDenied k a m = true ↔ k = .live ∧ (m = .standby ∨ m = .service ∨ a = .crew) := by
  simp [pageDenied, Mode.denies_iff, or_assoc]

section
variable {c : Ic}

theorem Ic.freeChannel_eq_none (used : ∀ ch, c.channels.get ch ≠ none) : c.freeChannel = none := by
  rw [Ic.freeChannel, List.find?_eq_none]
  intro ch _
  rw [Option.isNone_iff_eq_none]
  exact used ch

theorem Ic.freeChannel_eq_some {ch : Channel} (free : c.channels.get ch = none)
    (used : ∀ i < ch, c.channels.get i ≠ none) : c.freeChannel = some ch :=
  find_fin (Option.isNone_iff_eq_none.mpr free) fun i hi =>
    Bool.eq_false_iff.mpr fun h => used i hi (Option.isNone_iff_eq_none.mp h)

end

section
variable {s : State} {a : Station} {set : Nat} {e : Bool} {k : PageClass}

theorem State.takePage_of_busy (busy : ∀ n, (s.ic.stations.get a).standing ≠ .idle n) : s.takePage a set e = s := by
  simp only [State.takePage, State.station_eq, Standing.isIdle_of_not busy, Bool.not_false, if_true]

variable (idle : s.stationIdle a) (cls : pageClass e (s.ic.stations.get a).authority s.mau.published = k)
include idle cls

theorem State.takePage_of_denied
    (denied : k = .live ∧ (s.xu.mode = .standby ∨ s.xu.mode = .service ∨ (s.ic.stations.get a).authority = .crew)
      ∨ 31 < set ∨ ∀ c, s.ic.channels.get c ≠ none) :
    s.takePage a set e = s.standingSet a (.idle .busyDenied) := by
  rw [← State.deny_eq idle]
  simp only [State.takePage, State.station_eq, idle.isIdle, cls, Bool.not_true, Bool.false_eq_true, if_false]
  by_cases early : pageDenied k (s.ic.stations.get a).authority s.xu.mode = true
  · rw [if_pos early]
  · rw [if_neg early]
    rcases denied with h | out | used
    · exact absurd ((pageDenied_iff ..).mpr h) early
    · rw [index_none (Nat.not_lt.mpr out)]
    · rw [Ic.freeChannel_eq_none used]
      cases index 32 set <;> rfl

theorem State.takePage_of_admissible {z : SetIx} {c : Channel}
    (admissible : k = .ev ∨ (s.xu.mode = .normal ∨ s.xu.mode = .night) ∧ (s.ic.stations.get a).authority ≠ .crew)
    (named : z.val = set) (free : s.ic.channels.get c = none) (used : ∀ i < c, s.ic.channels.get i ≠ none) :
    s.takePage a set e =
      { s.isSends [.claim (pageClaim k c) (.zones (s.zm.sets.get z).members) .any none] with
        ic := { s.ic with awaiting := some ⟨a, k, z, c, (s.zm.sets.get z).chime⟩ } } := by
  have heard : pageDenied k (s.ic.stations.get a).authority s.xu.mode = false := by
    rw [Bool.eq_false_iff, Ne, pageDenied_iff]
    rintro ⟨rfl, denied⟩
    rcases admissible with h | ⟨mode, crew⟩
    · exact PageClass.noConfusion h
    · rcases mode with h | h <;> simp [h, crew] at denied
  simp only [State.takePage, State.station_eq, idle.isIdle, cls, heard, index_some z named,
    Ic.freeChannel_eq_some free used, Bool.not_true, Bool.false_eq_true, if_false]
  rfl

end

theorem exec_groupJoin_settles {s u : State} {st : Station} {w : ControlWord} {q : List IsMsg}
    (fresh : s.freshWord st w q) (event : w.event = 4) (acts : (s.wordTaken st w q).joinGroup st w.arg.toNat = u) :
    ∃ t, exec (.groupJoin st w.arg) s = .next t ∧ u.settles t := by
  have run : exec (.groupJoin st w.arg) s = execGroupJoin st w.arg s := rfl
  rw [run, execGroupJoin]
  exact stationEvent_settles fresh (by simp [event]) acts

theorem exec_page_settles {s u : State} {st : Station} {w : ControlWord} {q : List IsMsg} {set : BitVec 7} {e : Bool}
    (fresh : s.freshWord st w q) (event : w.event = 5) (arg : w.arg = BitVec.ofBool e ++ set)
    (acts : (s.wordTaken st w q).takePage st set.toNat e = u) :
    ∃ t, exec (.page st set e) s = .next t ∧ u.settles t := by
  have run : exec (.page st set e) s = execPage st set e s := rfl
  rw [run, execPage]
  exact stationEvent_settles fresh (by simp [event, arg]) acts

theorem exec_talkDown_settles {s : State} {st : Station} {w : ControlWord} {q : List IsMsg}
    (fresh : s.freshWord st w q) (event : w.event = 6) :
    ∃ t, exec (.talkDown st) s = .next t ∧ ((s.wordTaken st w q).setKey st true).settles t := by
  have run : exec (.talkDown st) s = execTalkDown st s := rfl
  rw [run, execTalkDown]
  exact stationEvent_settles fresh (by simp [event]) rfl

theorem exec_talkUp_settles {s : State} {st : Station} {w : ControlWord} {q : List IsMsg}
    (fresh : s.freshWord st w q) (event : w.event = 7) :
    ∃ t, exec (.talkUp st) s = .next t ∧ ((s.wordTaken st w q).setKey st false).settles t := by
  have run : exec (.talkUp st) s = execTalkUp st s := rfl
  rw [run, execTalkUp]
  exact stationEvent_settles fresh (by simp [event]) rfl

theorem exec_undefinedStationEvent_settles {s : State} {st : Station} {w : ControlWord} {q : List IsMsg}
    (fresh : s.freshWord st w q) (event : w.event = 0 ∨ 8 ≤ w.event.toNat) :
    ∃ t, exec (.undefinedStationEvent st w.event) s = .next t ∧ (s.wordTaken st w q).settles t := by
  have run : exec (.undefinedStationEvent st w.event) s = execUndefinedStationEvent st w.event s := rfl
  rw [run, execUndefinedStationEvent]
  exact stationEvent_settles fresh (by simpa using event) rfl

theorem exec_referenceWord_settles {s : State} {st : Station} {w : ControlWord} {q : List IsMsg}
    (free : s.ic.awaiting = none) (head : s.net.stationToIs.get (stationPort st).ix = .word st w :: q)
    (online : (s.ic.stations.get st).standing ≠ .offline) (new : (s.ic.stations.get st).counter = none) :
    ∃ t, exec (.referenceWord st) s = .next t
      ∧ ((s.tookStation (stationPort st)).modStation st fun r => { r with counter := some w.counter }).settles t := by
  have run : exec (.referenceWord st) s = execReferenceWord st s := rfl
  simp only [run, execReferenceWord, State.wordOf_of_head head]
  refine event_settles ?_ rfl
  rw [Ic.freeToAct_of_none free, State.station_eq, (Standing.online_iff _).mpr online, new]
  rfl

/-- The command by which IS takes the word `w` of station `st`, a GROUP_JOIN say, or an event of no kind (R76). -/
def wordCommand (st : Station) (w : ControlWord) (c : Instr) : Prop :=
  ((c, w.event) ∈ [(Instr.call st w.arg, 1), (.answer st, 2), (.clear st, 3), (.groupJoin st w.arg, 4),
      (.talkDown st, 6), (.talkUp st, 7)]
    ∨ w.event = 5 ∧ (∃ set emergency, w.arg = BitVec.ofBool emergency ++ set ∧ c = .page st set emergency)
    ∨ (w.event = 0 ∨ 8 ≤ w.event.toNat) ∧ c = .undefinedStationEvent st w.event)

/-- Each of those commands is a station event that the word fits. -/
theorem wordCommand.isStationEvent {st : Station} {w : ControlWord} {c : Instr} (command : wordCommand st w c) (s : State) :
    ∃ fits act, fits w = true ∧ exec c s = stationEvent st fits s act := by
  rcases command with h | ⟨event, set, e, arg, rfl⟩ | ⟨event, rfl⟩
  · simp only [List.mem_cons, Prod.mk.injEq, List.not_mem_nil, or_false] at h
    rcases h with ⟨rfl, event⟩ | ⟨rfl, event⟩ | ⟨rfl, event⟩ | ⟨rfl, event⟩ | ⟨rfl, event⟩ | ⟨rfl, event⟩
    · exact ⟨fun x => x.event = 1 && x.arg = w.arg, fun s => s.takeCall st w.arg.toNat, by simp [event], rfl⟩
    · exact ⟨fun x => x.event = 2, fun s => s.takeAnswer st, by simp [event], rfl⟩
    · exact ⟨fun x => x.event = 3, fun s => s.clearStation st, by simp [event], rfl⟩
    · exact ⟨fun x => x.event = 4 && x.arg = w.arg, fun s => s.joinGroup st w.arg.toNat, by simp [event], rfl⟩
    · exact ⟨fun x => x.event = 6, fun s => s.setKey st true, by simp [event], rfl⟩
    · exact ⟨fun x => x.event = 7, fun s => s.setKey st false, by simp [event], rfl⟩
  · exact ⟨fun x => x.event = 5 && x.arg = BitVec.ofBool e ++ set, fun s => s.takePage st set.toNat e,
      by simp [event, arg], rfl⟩
  · exact ⟨fun x => x.event = w.event && (w.event = 0 || 8 ≤ w.event.toNat), id, by simpa using event, rfl⟩

/-- Settles O45: each event acts on the state with its word taken, by the equations of `joinGroup`, `takePage` and
`setKey`. -/
theorem stationEventsJoinPageAndKey : Obligations.StationEventsJoinPageAndKey := by
  refine ⟨?fresh, ?other⟩
  case fresh =>
    rintro s v st w q r fresh hv rfl
    have idle {m} (h : (s.ic.stations.get st).standing = .idle m) : v.stationIdle st :=
      ⟨_, hv ▸ State.wordTaken_standing_of_idle h⟩
    have kept (h : ∀ m, (s.ic.stations.get st).standing ≠ .idle m) :
        (v.ic.stations.get st).standing = (s.ic.stations.get st).standing :=
      hv ▸ State.wordTaken_standing_of_not_idle h
    have xu : v.xu = s.xu := hv ▸ rfl
    have zm : v.zm = s.zm := hv ▸ rfl
    have mau : v.mau = s.mau := hv ▸ rfl
    have channels : v.ic.channels = s.ic.channels := hv ▸ rfl
    have groups : (v.ic.stations.get st).groups = (s.ic.stations.get st).groups := hv ▸ State.wordTaken_groups ..
    have authority : (v.ic.stations.get st).authority = (s.ic.stations.get st).authority :=
      hv ▸ State.wordTaken_authority ..
    refine ⟨fun event => ?join, fun set e k event arg cls => ?page, fun c b talks => ?talk, fun event => ?undefined⟩
    case join =>
      refine ⟨fun m stands => ⟨fun denied => exec_groupJoin_settles fresh event ?_,
        fun mode g named bit => exec_groupJoin_settles fresh event ?_⟩,
        fun busy => exec_groupJoin_settles fresh event ?_⟩
      · rw [← hv, State.joinGroup_of_denied (idle stands)]
        rwa [xu, groups]
      · rw [← hv, State.joinGroup_of_member (idle stands) (xu ▸ mode) named (groups ▸ bit)]
      · rw [← hv, State.joinGroup_of_busy (kept busy ▸ busy)]
    case page =>
      have cls : pageClass e (v.ic.stations.get st).authority v.mau.published = k :=
        PageClass.eq_of_iff_ev (by rw [pageClass_eq_ev, authority, mau, cls])
      refine ⟨fun busy => exec_page_settles fresh event arg ?_, fun m stands =>
        ⟨fun denied => exec_page_settles fresh event arg ?_,
          fun admissible z c named free used => exec_page_settles fresh event arg ?_⟩⟩
      · rw [← hv, State.takePage_of_busy (kept busy ▸ busy)]
      · rw [← hv, State.takePage_of_denied (idle stands) cls]
        rwa [xu, authority, channels]
      · rw [← hv, State.takePage_of_admissible (z := z) (c := c) (idle stands) cls _ named (channels ▸ free) (channels ▸ used), zm]
        · cases k <;> rfl
        · rwa [xu, authority]
    case talk =>
      rcases talks with ⟨event, rfl, rfl⟩ | ⟨event, rfl, rfl⟩
      · exact hv ▸ exec_talkDown_settles fresh event
      · exact hv ▸ exec_talkUp_settles fresh event
    case undefined => exact hv ▸ exec_undefinedStationEvent_settles fresh event
  case other =>
    rintro s _ st w q free head rfl
    refine ⟨fun online new => ?_, fun stale c events => ?_⟩
    · have settled := exec_referenceWord_settles free head online new
      rwa [State.tookStation_of_head head] at settled
    · obtain ⟨fits, act, fit, run⟩ := wordCommand.isStationEvent events s
      rw [run]
      exact stationEvent_discards free head fit stale

end Sys2Proof.Machine

namespace Sys2Proof.Machine

/-! ## STATION_SET and INTERCOM_CONFIG (R95, R96) -/

theorem icTakesRequest_of_free {s : State} (free : s.ic.awaiting = none) (nil : s.net.xuToIs = []) :
    s.icTakesRequest = true := by
  rw [State.icTakesRequest, Ic.freeToAct_of_none free, nil]
  rfl

theorem authorityOf_eq (n : Nat) : authorityOf n = [Authority.crew, .officer, .bridge][n]? := by
  match n with
  | 0 | 1 | 2 => rfl
  | n + 3 => rfl

section
variable {s : State} {slot : SlotIx} (free : s.ic.awaiting = none) (nil : s.net.xuToIs = [])
include free nil

theorem exec_stationSet_answers {u : State} {p : StationSetParams} {c : Completion}
    (dispatched : s.xu.dispatch = some (slot, .stationSet p)) (made : takeStationSet slot p s = u.handOver slot c) :
    ∃ t, exec (.stationSet slot p) s = .next t ∧ u.answers t slot c :=
  request_answers dispatched (icTakesRequest_of_free free nil) made

theorem exec_intercomConfig_answers {u : State} {p : IntercomConfigParams} {c : Completion}
    (dispatched : s.xu.dispatch = some (slot, .intercomConfig p))
    (made : takeIntercomConfig slot p s = u.handOver slot c) :
    ∃ t, exec (.intercomConfig slot p) s = .next t ∧ u.answers t slot c :=
  request_answers dispatched (icTakesRequest_of_free free nil) made

theorem exec_callConnect_answers {u : State} {p : CallConnectParams} {c : Completion}
    (dispatched : s.xu.dispatch = some (slot, .callConnect p)) (made : takeCallConnect slot p s = u.handOver slot c) :
    ∃ t, exec (.callConnect slot p) s = .next t ∧ u.answers t slot c :=
  request_answers dispatched (icTakesRequest_of_free free nil) made

theorem exec_callRelease_answers {u : State} {p : CallReleaseParams} {c : Completion}
    (dispatched : s.xu.dispatch = some (slot, .callRelease p)) (made : takeCallRelease slot p s = u.handOver slot c) :
    ∃ t, exec (.callRelease slot p) s = .next t ∧ u.answers t slot c :=
  request_answers dispatched (icTakesRequest_of_free free nil) made

end

/-- A station's record with the three settings of STATION_SET. -/
def StationRec.configured (r : StationRec) (a : Authority) (groups : BitVec 8) (listen : Nat) : StationRec :=
  { r with authority := a, groups := groups, listen := listen }

/-- `s` with those settings stored and the listen gain posted. -/
def State.configured (s : State) (st : Station) (r : StationRec) : State :=
  { s with
    ic := { s.ic with stations := s.ic.stations.set st r }
    net := { s.net with isToZm := s.net.isToZm ++ [.listen st r.listen] } }

section
variable {s : State} {st : Station} {a : Authority} {groups : BitVec 8} {listen : Nat}

/-- A station that is on no party line, or on one it is still a member of, stays where it is. -/
theorem State.setStation_of_stays
    (stays : ∀ g, (s.ic.stations.get st).standing = .group g → groups.getLsbD g.val = true) :
    s.setStation st a groups listen = s.configured st ((s.ic.stations.get st).configured a groups listen) := by
  rw [State.setStation, State.station_eq]
  split
  · rw [if_pos (stays _ ‹_›)]
    rfl
  · rfl

/-- A station that is no longer a member of its party line leaves it, and serves its list. -/
theorem State.setStation_of_leaves {g : Group} (joined : (s.ic.stations.get st).standing = .group g)
    (bit : groups.getLsbD g.val = false) (wait : s.callersWait st) :
    s.setStation st a groups listen =
      (((s.configured st ((s.ic.stations.get st).configured a groups listen)).standingSet st (.idle .quiet)).isSends
        [.standing st .none]).served st := by
  have get (b : Station) :
      (s.configured st ((s.ic.stations.get st).configured a groups listen)).ic.stations.get b =
        if b = st then (s.ic.stations.get st).configured a groups listen else s.ic.stations.get b := Table.get_set ..
  have standing (b : Station) :
      ((s.configured st ((s.ic.stations.get st).configured a groups listen)).ic.stations.get b).standing =
        (s.ic.stations.get b).standing := by
    rw [get]
    split
    · subst_vars; rfl
    · rfl
  have wait' : (s.configured st ((s.ic.stations.get st).configured a groups listen)).callersWait st := by
    refine wait.mono (by rw [get, if_pos rfl]; rfl) fun x waits => ?_
    rw [State.waitsOn, standing]
    exact waits
  have joined' := (standing st).trans joined
  rw [State.setStation, State.station_eq, joined]
  simp only [bit, Bool.false_eq_true, if_false]
  refine (State.setIdle_serve wait' (State.not_waitsOn_of joined' (fun _ _ => Standing.noConfusion) st)).trans ?_
  rw [joined']
  rfl

end

section
variable {s : State} {slot : SlotIx} {p : StationSetParams}

theorem takeStationSet_of_station_out (out : 63 < p.station.toNat) : takeStationSet slot p s = s.refuse slot .format 1 := by
  rw [takeStationSet, index_none (Nat.not_lt.mpr out)]

theorem takeStationSet_of_authority_out {st : Station} (named : st.val = p.station.toNat) (out : 2 < p.authority.toNat) :
    takeStationSet slot p s = s.refuse slot .format 2 := by
  have unknown : authorityOf p.authority.toNat = none := by
    rw [authorityOf_eq]
    exact List.getElem?_eq_none out
  rw [takeStationSet, index_some st named, unknown]

theorem takeStationSet_of_named {st : Station} {a : Authority} (named : st.val = p.station.toNat)
    (known : [Authority.crew, .officer, .bridge][p.authority.toNat]? = some a) :
    takeStationSet slot p s =
      (s.setStation st a (p.groups.setWidth 8) (min 32768 p.listen.toNat)).perform slot .none := by
  rw [takeStationSet, index_some st named, authorityOf_eq, known, clampGain_eq]

end

/-- Settles O23. -/
theorem stationSetAndIntercomConfig : Obligations.StationSetAndIntercomConfig := by
  intro s slot free nil
  refine ⟨fun p dispatched => ?config, fun p dispatched => ⟨fun out => ?station, fun named out => ?authority,
    fun st a r named known hr => ⟨fun stays => ?stays, fun g joined bit wait => ?leaves⟩⟩⟩
  case config =>
    refine exec_intercomConfig_answers free nil dispatched ?_
    rw [takeIntercomConfig, clamp_eq _ _ _ (by decide), clamp_eq _ _ _ (by decide), clamp_eq _ _ _ (by decide)]
    rfl
  case station => exact exec_stationSet_answers free nil dispatched (takeStationSet_of_station_out out)
  case authority =>
    have named : (⟨p.station.toNat, Nat.lt_succ_of_le named⟩ : Station).val = p.station.toNat := rfl
    exact exec_stationSet_answers free nil dispatched (takeStationSet_of_authority_out named out)
  case stays =>
    refine exec_stationSet_answers free nil dispatched ?_
    subst hr
    rw [takeStationSet_of_named named known, State.setStation_of_stays stays]
    rfl
  case leaves =>
    refine exec_stationSet_answers free nil dispatched ?_
    subst hr
    rw [takeStationSet_of_named named known, State.setStation_of_leaves joined bit wait]
    simp only [State.configured, State.standingSet, State.isSends, StationRec.configured, Table.set_set,
      Table.get_set_self, List.append_assoc, List.cons_append, List.nil_append]
    rfl

/-! ## CALL_CONNECT and CALL_RELEASE (R97, R98) -/

section
variable {s : State} {slot : SlotIx} {p : CallConnectParams} {a b : Station}

theorem takeCallConnect_of_first_out (out : 63 < p.a.toNat) : takeCallConnect slot p s = s.refuse slot .format 1 := by
  rw [takeCallConnect, index_none (Nat.not_lt.mpr out)]

theorem takeCallConnect_of_second_out (first : a.val = p.a.toNat) (out : 63 < p.b.toNat ∨ p.b = p.a) :
    takeCallConnect slot p s = s.refuse slot .format 2 := by
  rcases out with out | same
  · rw [takeCallConnect, index_some a first, index_none (Nat.not_lt.mpr out)]
  · rw [takeCallConnect, same, index_some a first]
    exact if_pos rfl

theorem takeCallConnect_of_named (first : a.val = p.a.toNat) (second : b.val = p.b.toNat) (other : a ≠ b) :
    takeCallConnect slot p s =
      if (s.ic.stations.get a).standing.isIdle = false then s.refuse slot .state 1
      else if (s.ic.stations.get b).standing.isIdle = false then s.refuse slot .state 2
      else (s.connect a b).perform slot .none := by
  rw [takeCallConnect, index_some a first, index_some b second]
  simp only [if_neg other.symm, State.station_eq, Bool.not_eq_true']

theorem takeCallRelease_of_out {p : CallReleaseParams} (out : 63 < p.station.toNat) :
    takeCallRelease slot p s = s.refuse slot .format 1 := by
  rw [takeCallRelease, index_none (Nat.not_lt.mpr out)]

theorem takeCallRelease_of_named {p : CallReleaseParams} (named : a.val = p.station.toNat) :
    takeCallRelease slot p s =
      if (s.ic.stations.get a).standing.online && !(s.ic.stations.get a).standing.isIdle then
        (s.clearStation a).perform slot .none
      else s.refuse slot .state 1 := by
  rw [takeCallRelease, index_some a named]
  rfl

end

/-- A station that is in something that a CLEAR ends is neither OFFLINE nor IDLE. -/
theorem State.leaves.busy {s u : State} {a : Station} (leaves : s.leaves u a) :
    ((s.ic.stations.get a).standing.online && !(s.ic.stations.get a).standing.isIdle) = true := by
  obtain ⟨-, ⟨b, notice, -, -, ⟨stands, -, -⟩ | ⟨⟨n, stands⟩, -, -⟩, -⟩ | ⟨b, -, -, stands, -, -⟩ | ⟨o, n, -, stands, -⟩
    | ⟨g, stands, -⟩ | ⟨c, p, stands, -, -⟩⟩ := leaves
  all_goals
    rw [stands]
    rfl

/-- Settles O24: CALL_CONNECT by the equation of `connect`, CALL_RELEASE by that of `clearStation`. -/
theorem callConnectAndCallRelease : Obligations.CallConnectAndCallRelease := by
  intro s slot free nil
  refine ⟨fun p dispatched => ⟨fun out => ?first, fun named out => ?second, fun a b first second other =>
    ⟨fun busy => ?busy, fun idle busy => ?busy', fun idle idle' => ?joins⟩⟩, fun p dispatched =>
    ⟨fun out => ?out, fun a named => ⟨fun still => ?still, fun u leaves => ?leaves⟩⟩⟩
  case first => exact exec_callConnect_answers free nil dispatched (takeCallConnect_of_first_out out)
  case second =>
    have first : (⟨p.a.toNat, Nat.lt_succ_of_le named⟩ : Station).val = p.a.toNat := rfl
    exact exec_callConnect_answers free nil dispatched (takeCallConnect_of_second_out first out)
  case busy =>
    refine exec_callConnect_answers free nil dispatched ((takeCallConnect_of_named first second other).trans ?_)
    rw [if_pos (Standing.isIdle_of_not busy)]
    rfl
  case busy' =>
    refine exec_callConnect_answers free nil dispatched ((takeCallConnect_of_named first second other).trans ?_)
    rw [(Standing.isIdle_iff _).mpr idle, if_pos (Standing.isIdle_of_not busy)]
    rfl
  case joins =>
    refine exec_callConnect_answers free nil dispatched ((takeCallConnect_of_named first second other).trans ?_)
    rw [(Standing.isIdle_iff _).mpr idle, (Standing.isIdle_iff _).mpr idle', State.connect_eq]
    rfl
  case out => exact exec_callRelease_answers free nil dispatched (takeCallRelease_of_out out)
  case still =>
    refine exec_callRelease_answers free nil dispatched ((takeCallRelease_of_named named).trans ?_)
    rcases still with offline | ⟨n, idle⟩
    · rw [offline]; rfl
    · rw [idle]; rfl
  case leaves =>
    refine exec_callRelease_answers free nil dispatched ((takeCallRelease_of_named named).trans ?_)
    rw [leaves.busy, State.clearStation_of_leaves leaves]
    rfl

end Sys2Proof.Machine

namespace Sys2Proof.Machine

/-! ## Timers that run out (R84, R87, R105) -/

section
variable {s : State} {a o : Station} {n : Nat}

/-- A ring timer that runs out ends the ringing as CLEAR does. -/
theorem State.ringExpired_eq (rings : (s.ic.stations.get a).standing = .ringing o n) :
    s.ringExpired a = s.clearStation a := by
  simp only [State.ringExpired, State.clearStation, State.station_eq, rings]

/-- A waiter whose timer runs out leaves the list, shown NO_ANSWER, and serves its own. -/
theorem State.waitExpired_eq (waits : (s.ic.stations.get a).standing = .waiting o n) (other : o ≠ a)
    (wait : s.callersWait a) :
    s.waitExpired a =
      ((s.listSet o ((s.ic.stations.get o).waiting.filter fun x => decide (x ≠ a))).standingSet a
        (.idle .noAnswer)).served a := by
  rw [← State.unqueue_setIdle_serve .noAnswer other waits wait]
  simp only [State.waitExpired, State.station_eq, waits]

/-- A page whose limit runs out ends as CLEAR ends it. -/
theorem State.pageExpired_eq {c : Channel} {p : PageRec} (used : s.ic.channels.get c = some p)
    (pages : (s.ic.stations.get p.station).standing = .paging c) : s.pageExpired c = s.clearStation p.station := by
  simp only [State.pageExpired, State.clearStation, State.station_eq, used, pages]

theorem Ic.limitOut_of_some {c : Ic} {ch : Channel} {p : PageRec} (used : c.channels.get ch = some p) :
    c.limitOut ch = decide (p.left = 0) := by
  rw [Ic.limitOut, used]

end

/-- A waiter taken off the list, as the statements write it. -/
theorem State.listSet_standingSet {s : State} {a o : Station} {l : List Station} {v : Standing} (other : o ≠ a) :
    (s.listSet o l).standingSet a v =
      { s with
        ic :=
          { s.ic with
            stations :=
              (s.ic.stations.set o { s.ic.stations.get o with waiting := l }).set a
                { s.ic.stations.get a with standing := v } } } := by
  simp only [State.standingSet, State.listSet, Table.get_set_ne _ _ other.symm]

/-! ## Which timers stand at 0 -/

/-- A timer of station `a` has run out: of its ring, of its wait, or of its page. -/
def State.timerOut (s : State) (a : Station) : Prop :=
  (∃ b, (s.ic.stations.get a).standing = .ringing b 0) ∨ (∃ o, (s.ic.stations.get a).standing = .waiting o 0)
    ∨ ∃ c p, (s.ic.stations.get a).standing = .paging c ∧ s.ic.channels.get c = some p ∧ p.left = 0

theorem State.expireAt_of_running {s : State} {a : Station} (runs : ¬s.timerOut a) : s.expireAt a = s := by
  rw [State.expireAt, State.station_eq]
  split
  · exact absurd (.inl ⟨_, ‹_›⟩) runs
  · exact absurd (.inr (.inl ⟨_, ‹_›⟩)) runs
  · refine if_neg fun out => ?_
    rw [Ic.limitOut] at out
    split at out
    · exact runs (.inr (.inr ⟨_, _, ‹_›, ‹_›, of_decide_eq_true out⟩))
    · exact Bool.false_ne_true out
  · rfl

/-- A timer that is not a wait timer expires as CLEAR would end what its station is in. -/
theorem State.expireAt_eq_clearStation {s : State} {a : Station} (out : s.timerOut a)
    (elsewhere : ∀ o n, (s.ic.stations.get a).standing ≠ .waiting o n)
    (owned : ∀ c p, (s.ic.stations.get a).standing = .paging c → s.ic.channels.get c = some p → p.station = a) :
    s.expireAt a = s.clearStation a := by
  rcases out with ⟨b, rings⟩ | ⟨o, waits⟩ | ⟨c, p, pages, used, left⟩
  · rw [← State.ringExpired_eq rings, State.expireAt, State.station_eq, rings]
    rfl
  · exact absurd waits (elsewhere o 0)
  · obtain rfl := owned c p pages used
    rw [← State.pageExpired_eq used pages, State.expireAt, State.station_eq, pages]
    exact if_pos ((Ic.limitOut_of_some used).trans (decide_eq_true left))

theorem State.expireAt_of_waiting {s : State} {a o : Station} (waits : (s.ic.stations.get a).standing = .waiting o 0) :
    s.expireAt a = s.waitExpired a := by
  rw [State.expireAt, State.station_eq, waits]
  rfl

/-- A standing that has no timer at 0, and no page. -/
def Standing.unexpired (v : Standing) : Prop :=
  (∀ b, v ≠ .ringing b 0) ∧ (∀ o, v ≠ .waiting o 0) ∧ ∀ c, v ≠ .paging c

/-- `t` is `s` with some stations moved to standings that run no timer out, and perhaps pages ended. -/
structure Calms (s t : State) : Prop where
  timeout : t.ic.ringTimeout = s.ic.ringTimeout
  mau : t.mau = s.mau
  standing : ∀ z, (t.ic.stations.get z).standing = (s.ic.stations.get z).standing ∨ (t.ic.stations.get z).standing.unexpired
  channels : ∀ c, t.ic.channels.get c = s.ic.channels.get c ∨ t.ic.channels.get c = none

namespace Calms

theorem refl (s : State) : Calms s s := ⟨rfl, rfl, fun _ => .inl rfl, fun _ => .inl rfl⟩

theorem trans {s t u : State} (h : Calms s t) (k : Calms t u) : Calms s u where
  timeout := k.timeout.trans h.timeout
  mau := k.mau.trans h.mau
  standing z := by
    rcases k.standing z with same | calm
    · rw [same]; exact h.standing z
    · exact .inr calm
  channels c := by
    rcases k.channels c with same | free
    · rw [same]; exact h.channels c
    · exact .inr free

theorem unexpired {s t : State} {z : Station} (h : Calms s t) (calm : (s.ic.stations.get z).standing.unexpired) :
    (t.ic.stations.get z).standing.unexpired := by
  rcases h.standing z with same | calm'
  · rwa [same]
  · exact calm'

theorem standingSet (s : State) (a : Station) {v : Standing} (calm : v.unexpired) : Calms s (s.standingSet a v) where
  timeout := rfl
  mau := rfl
  standing z := by
    rw [State.standingSet_standing]
    split
    · exact .inr calm
    · exact .inl rfl
  channels _ := .inl rfl

theorem isSends (s : State) (ms : List ZmMsg) : Calms s (s.isSends ms) :=
  ⟨rfl, rfl, fun _ => .inl rfl, fun _ => .inl rfl⟩

theorem listSet (s : State) (a : Station) (l : List Station) : Calms s (s.listSet a l) :=
  ⟨rfl, rfl, fun z => .inl (s.listSet_standing a z l), fun _ => .inl rfl⟩

theorem pageEnded (s : State) (c : Channel) (p : PageRec) : Calms s (s.pageEnded c p) where
  timeout := rfl
  mau := rfl
  standing _ := .inl rfl
  channels d := by
    rw [State.pageEnded, Table.get_set]
    split
    · exact .inr rfl
    · exact .inl rfl

theorem served {s : State} (a : Station) (runs : s.ic.ringTimeout ≠ 0) : Calms s (s.served a) := by
  cases list : (s.ic.stations.get a).waiting with
  | nil => rw [State.served_of_nil list]; exact .refl s
  | cons x rest =>
    rw [State.served, list]
    refine ⟨rfl, rfl, fun z => ?_, fun _ => .inl rfl⟩
    simp only [Table.get_set]
    split_ifs
    · exact .inr ⟨nofun, nofun, nofun⟩
    · exact .inr ⟨fun b h => runs (Standing.ringing.inj h).2, nofun, nofun⟩
    · exact .inl rfl

theorem served_served {s : State} (a b : Station) (runs : s.ic.ringTimeout ≠ 0) : Calms s ((s.served a).served b) :=
  (served a runs).trans (served b ((served a runs).timeout ▸ runs))

/-- A waiter that leaves the list it stands on and serves its own runs no timer out. -/
theorem unqueued {s : State} {a o : Station} {l : List Station} {n : IdleNotice} (runs : s.ic.ringTimeout ≠ 0) :
    Calms s (((s.listSet o l).standingSet a (.idle n)).served a)
      ∧ ((((s.listSet o l).standingSet a (.idle n)).served a).ic.stations.get a).standing.unexpired := by
  have calm : (Standing.idle n).unexpired := ⟨nofun, nofun, nofun⟩
  have after := served (s := (s.listSet o l).standingSet a (.idle n)) a runs
  refine ⟨((listSet s o l).trans (standingSet _ a calm)).trans after, after.unexpired ?_⟩
  rw [State.standingSet_standing, if_pos rfl]
  exact calm

/-- A station that leaves what it is in, and those it leaves behind, run no timer out. -/
theorem leaves {s u : State} {a : Station} (runs : s.ic.ringTimeout ≠ 0) (leaves : s.leaves u a) :
    Calms s u ∧ (u.ic.stations.get a).standing.unexpired := by
  have idle (n : IdleNotice) : (Standing.idle n).unexpired := ⟨nofun, nofun, nofun⟩
  have entered (t : State) (n : IdleNotice) : ((t.standingSet a (.idle n)).ic.stations.get a).standing.unexpired := by
    rw [State.standingSet_standing, if_pos rfl]
    exact idle n
  have first := standingSet s a (idle .quiet)
  obtain ⟨-, ⟨b, n, -, -, -, rfl⟩ | ⟨b, -, -, -, -, rfl⟩ | ⟨o, k, other, -, rfl⟩ | ⟨g, -, rfl⟩ | ⟨c, p, -, -, rfl⟩⟩ := leaves
  · have after := (standingSet (s.standingSet a (.idle .quiet)) b (idle n)).trans (served_served a b runs)
    exact ⟨first.trans after, after.unexpired (entered s .quiet)⟩
  · have after := ((standingSet (s.standingSet a (.idle .quiet)) b (idle .quiet)).trans
      (isSends _ [.standing a .none, .standing b .none])).trans (served_served a b runs)
    exact ⟨first.trans after, after.unexpired (entered s .quiet)⟩
  · rw [← State.listSet_standingSet other]
    exact unqueued runs
  · have after := (isSends (s.standingSet a (.idle .quiet)) [.standing a .none]).trans (served a runs)
    exact ⟨first.trans after, after.unexpired (entered s .quiet)⟩
  · have after := (pageEnded (s.standingSet a (.idle .quiet)) c p).trans (served a runs)
    exact ⟨first.trans after, after.unexpired (entered s .quiet)⟩

/-- Where one timer alone had run out and its station has left what it was in, none has run out. -/
theorem none_out {s u : State} {a : Station} (h : Calms s u) (calm : (u.ic.stations.get a).standing.unexpired)
    (alone : ∀ x, s.timerOut x → x = a) (z : Station) : ¬u.timerOut z := by
  intro out
  have not_calm : ¬(u.ic.stations.get z).standing.unexpired := by
    rintro ⟨ring, wait, page⟩
    rcases out with ⟨b, rings⟩ | ⟨o, waits⟩ | ⟨c, p, pages, -, -⟩
    · exact ring b rings
    · exact wait o waits
    · exact page c pages
  have same := (h.standing z).resolve_right not_calm
  refine not_calm ((alone z ?_) ▸ calm)
  rcases out with ⟨b, rings⟩ | ⟨o, waits⟩ | ⟨c, p, pages, used, left⟩
  · exact .inl ⟨b, same ▸ rings⟩
  · exact .inr (.inl ⟨o, same ▸ waits⟩)
  · refine .inr (.inr ⟨c, p, same ▸ pages, ?_, left⟩)
    rcases h.channels c with same | free
    · rw [← same, used]
    · rw [free] at used; exact absurd used nofun

end Calms

/-- The expiries of a period start at which no timer has run out. -/
theorem State.foldl_expireAt_of_none {s : State} (none_out : ∀ x, ¬s.timerOut x) (l : List Station) :
    l.foldl State.expireAt s = s := by
  induction l with
  | nil => rfl
  | cons x l ih => rw [List.foldl_cons, State.expireAt_of_running (none_out x), ih]

/-- The expiries of a period start at which one timer alone has run out, in whatever order the stations are visited. -/
theorem State.foldl_expireAt_of_one {s u : State} {a : Station} (alone : ∀ x, s.timerOut x → x = a)
    (expires : s.expireAt a = u) (none_out : ∀ x, ¬u.timerOut x) {l : List Station} (visited : a ∈ l) :
    l.foldl State.expireAt s = u := by
  induction l with
  | nil => exact absurd visited List.not_mem_nil
  | cons x l ih =>
    rw [List.foldl_cons]
    by_cases self : x = a
    · rw [self, expires, State.foldl_expireAt_of_none none_out]
    · rw [State.expireAt_of_running fun out => self (alone x out)]
      exact ih ((List.mem_cons.mp visited).resolve_left fun e => self e.symm)

/-! ## Chimes (R103) -/

/-- What a period start makes of the page of channel `c`, what it sends ZM, and what it delivers. -/
def chimeTurn (store : PatternStore) (c : Channel) (x : Option PageRec) :
    Option PageRec × List ZmMsg × List (Source × Period) :=
  match x with
  | some p =>
    match p.phase, p.gen with
    | .chime, some g =>
      match g.next store with
      | some g' => (some { p with gen := some g' }, [], [(.pageChime c, g.samples)])
      | none =>
        (some { p with phase := .opened, gen := none }, [.pageChannel c (some ⟨p.station, .opened⟩)],
          [(.pageChime c, g.samples)])
    | _, _ => (some p, [], [])
  | none => (none, [], [])

/-- The part with IS's channels, and what IS has sent ZM and delivered since, as given. -/
def State.chimesSent (s : State) (channels : Table 8 (Option PageRec)) (sent : List (List ZmMsg × List (Source × Period))) :
    State :=
  { s with
    ic := { s.ic with channels := channels }
    net :=
      { s.net with
        isToZm := s.net.isToZm ++ sent.flatMap Prod.fst, deliveries := s.net.deliveries ++ sent.flatMap Prod.snd } }

theorem State.chimesSent_self (s : State) : s.chimesSent s.ic.channels [] = s := by
  simp [State.chimesSent]

theorem State.openPage_eq {s : State} {c : Channel} {p : PageRec} (used : s.ic.channels.get c = some p) :
    s.openPage c =
      { s.isSends [.pageChannel c (some ⟨p.station, .opened⟩)] with
        ic := { s.ic with channels := s.ic.channels.set c (some { p with phase := .opened, gen := none }) } } := by
  rw [State.openPage, used]
  rfl

theorem State.pageChimePeriod_chimesSent (s : State) (channels : Table 8 (Option PageRec))
    (sent : List (List ZmMsg × List (Source × Period))) (c : Channel) :
    (s.chimesSent channels sent).pageChimePeriod c =
      s.chimesSent (channels.set c (chimeTurn s.mau.store c (channels.get c)).1)
        (sent ++ [(chimeTurn s.mau.store c (channels.get c)).2]) := by
  have stays : channels.set c (channels.get c) = channels := channels.set_get_self c
  unfold State.pageChimePeriod chimeTurn
  simp only [show (s.chimesSent channels sent).ic.channels = channels from rfl,
    show (s.chimesSent channels sent).mau = s.mau from rfl]
  cases used : channels.get c with
  | none => simp [State.chimesSent, ← used, stays]
  | some p =>
    obtain ⟨station, cls, set, admitted, phase, left, gen⟩ := p
    cases phase with
    | opened => simp [State.chimesSent, ← used, stays]
    | chime =>
      cases gen with
      | none => simp [State.chimesSent, ← used, stays]
      | some g =>
        cases next : g.next s.mau.store with
        | some g' => simp [next, State.chimesSent, State.deliver, State.modNet, State.modIc]
        | none =>
          simp only [next]
          rw [State.openPage_eq (p := ⟨station, cls, set, admitted, .chime, left, some g⟩) used]
          simp [State.chimesSent, State.deliver, State.modNet, State.isSends]

/-- The chimes of a period start, in rising channel number. -/
theorem State.foldl_pageChimePeriod {s : State} {store : PatternStore} (patterns : s.mau.store = store) :
    (List.finRange 8).foldl State.pageChimePeriod s =
      { s with
        ic := { s.ic with channels := s.ic.channels.update (chimeTurn store · · |>.1) }
        net :=
          { s.net with
            isToZm := s.net.isToZm ++ (List.finRange 8).flatMap fun c => (chimeTurn store c (s.ic.channels.get c)).2.1
            deliveries :=
              s.net.deliveries
                ++ (List.finRange 8).flatMap fun c => (chimeTurn store c (s.ic.channels.get c)).2.2 } } := by
  subst patterns
  have folded := foldl_set_send s.chimesSent (fun c x => (chimeTurn s.mau.store c x).1)
    (fun c x => [(chimeTurn s.mau.store c x).2]) s.pageChimePeriod_chimesSent s.ic.channels []
  rw [State.chimesSent_self] at folded
  rw [folded]
  simp [State.chimesSent, List.flatMap_assoc]

/-! ## The period start -/

section
variable {s : State} (free : s.ic.awaiting = none)
include free

theorem exec_isPeriodStart_settles {u : State} {first : List Station}
    (expires : (first ++ List.finRange 64).foldl State.expireAt (s.modIc Ic.aged) = u) :
    ∃ t, exec (.isPeriodStart first) s = .next t ∧ ((List.finRange 8).foldl State.pageChimePeriod u).settles t := by
  have run : exec (.isPeriodStart first) s = execIsPeriodStart first s := rfl
  rw [run, execIsPeriodStart]
  exact event_settles (Ic.freeToAct_of_none free) (by rw [expires])

theorem exec_ringTimeout_settles {u : State} {a b : Station} (rings : (s.ic.stations.get a).standing = .ringing b 0)
    (leaves : s.leaves u a) : ∃ t, exec (.ringTimeout a) s = .next t ∧ u.settles t := by
  have run : exec (.ringTimeout a) s = execRingTimeout a s := rfl
  rw [run, execRingTimeout, State.station_eq, rings]
  exact event_settles (Ic.freeToAct_of_none free)
    ((State.ringExpired_eq rings).trans (State.clearStation_of_leaves leaves))

theorem exec_waitTimeout_settles {a o : Station} (waits : (s.ic.stations.get a).standing = .waiting o 0) :
    ∃ t, exec (.waitTimeout a) s = .next t ∧ (s.waitExpired a).settles t := by
  have run : exec (.waitTimeout a) s = execWaitTimeout a s := rfl
  rw [run, execWaitTimeout, State.station_eq, waits]
  exact event_settles (Ic.freeToAct_of_none free) rfl

theorem exec_pageLimitExpiry_settles {u : State} {c : Channel} {p : PageRec} (used : s.ic.channels.get c = some p)
    (left : p.left = 0) (pages : (s.ic.stations.get p.station).standing = .paging c) (leaves : s.leaves u p.station) :
    ∃ t, exec (.pageLimitExpiry c) s = .next t ∧ u.settles t := by
  have run : exec (.pageLimitExpiry c) s = execPageLimitExpiry c s := rfl
  rw [run, execPageLimitExpiry, Ic.freeToAct_of_none free, Ic.limitOut_of_some used, decide_eq_true left]
  exact event_settles rfl ((State.pageExpired_eq used pages).trans (State.clearStation_of_leaves leaves))

theorem exec_pageChimeEnd_settles {c : Channel} {p : PageRec} (used : s.ic.channels.get c = some p)
    (chimes : p.phase = .chime) (ended : p.gen = none) :
    ∃ t, exec (.pageChimeEnd c) s = .next t ∧ (s.openPage c).settles t := by
  have run : exec (.pageChimeEnd c) s = execPageChimeEnd c s := rfl
  have due : s.ic.chimeOver c = true := by
    rw [Ic.chimeOver, used]
    simp [chimes, ended]
  rw [run, execPageChimeEnd, Ic.freeToAct_of_none free, due]
  exact event_settles rfl rfl

end

theorem Standing.aged_eq_paging {v : Standing} {c : Channel} : v.aged = .paging c ↔ v = .paging c := by
  cases v <;> simp [Standing.aged]

/-- Pages keep their stations as their limits move. -/
theorem Ic.aged_owned {i : Ic}
    (owned : ∀ st c p, (i.stations.get st).standing = .paging c → i.channels.get c = some p → p.station = st) :
    ∀ st c p, (i.aged.stations.get st).standing = .paging c → i.aged.channels.get c = some p → p.station = st := by
  intro st c p pages used
  simp only [Ic.aged, Table.get_update] at pages used
  obtain ⟨q, carried, rfl⟩ := Option.map_eq_some_iff.mp used
  exact owned st c q (Standing.aged_eq_paging.mp pages) carried

/-- Settles O47: `chimeTurn` is the statement's `chimed`, and the state its expiries leave has no timer at 0. -/
theorem isTimersExpire : Obligations.IsTimersExpire := by
  intro s free
  refine ⟨?period, fun u st a rings leaves => exec_ringTimeout_settles free rings leaves, fun st o waits other wait => ?wait,
    fun c p used => ⟨fun u left pages leaves => exec_pageLimitExpiry_settles free used left pages leaves,
      fun chimes ended => ?chime⟩⟩
  case period =>
    intro e u first out chimed runs owned he hout expires hchimed
    have aged : s.modIc Ic.aged = e := he ▸ rfl
    have runs : e.ic.ringTimeout ≠ 0 := he ▸ runs
    have mau : e.mau = s.mau := he ▸ rfl
    have owned : ∀ st c p, (e.ic.stations.get st).standing = .paging c → e.ic.channels.get c = some p → p.station = st :=
      aged ▸ Ic.aged_owned owned
    obtain rfl : out = e.timerOut := funext fun st => propext (hout st)
    have visits (st : Station) : st ∈ first ++ List.finRange 64 := List.mem_append_right _ (List.mem_finRange st)
    have expired : (first ++ List.finRange 64).foldl State.expireAt e = u ∧ u.mau = s.mau := by
      rcases expires with ⟨none_out, rfl⟩ | ⟨st, is_out, alone, ⟨elsewhere, leaves⟩ | ⟨o, other, waits, wait, rfl⟩⟩
      · exact ⟨State.foldl_expireAt_of_none none_out _, mau⟩
      · obtain ⟨calms, calm⟩ := Calms.leaves runs leaves
        refine ⟨State.foldl_expireAt_of_one alone ?_ (calms.none_out calm alone) (visits st), calms.mau.trans mau⟩
        rw [State.expireAt_eq_clearStation is_out elsewhere (owned st), State.clearStation_of_leaves leaves]
      · rw [← State.listSet_standingSet other]
        obtain ⟨calms, calm⟩ := Calms.unqueued (a := st) (o := o) (n := .noAnswer) runs
        refine ⟨State.foldl_expireAt_of_one alone ?_ (calms.none_out calm alone) (visits st), calms.mau.trans mau⟩
        rw [State.expireAt_of_waiting waits, State.waitExpired_eq waits other wait]
    obtain ⟨expired, mau⟩ := expired
    have turns : chimed = fun c => chimeTurn s.mau.store c (u.ic.channels.get c) := by
      funext c
      rw [hchimed c]
      rfl
    have settled := exec_isPeriodStart_settles free (aged ▸ expired)
    rw [State.foldl_pageChimePeriod (congrArg Mau.store mau)] at settled
    subst turns
    exact settled
  case wait =>
    rw [← State.listSet_standingSet other, ← State.waitExpired_eq waits other wait]
    exact exec_waitTimeout_settles free waits
  case chime =>
    rw [← State.openPage_eq used]
    exact exec_pageChimeEnd_settles free used chimes ended

end Sys2Proof.Machine

namespace Sys2Proof.Machine

/-! ## The conversation structure (R73, R99) -/

/-- The conversation structure, read off what stations stand in (`v`), their waiting lists (`l`) and the page channels. A
station of `late` may be IDLE with callers it has yet to serve. -/
structure Fits (v : Station → Standing) (l : Station → List Station) (pages : Channel → Option PageRec)
    (late : Station → Prop) : Prop where
  offline : ∀ a, v a = .offline → l a = []
  idle : ∀ a n, v a = .idle n → ¬late a → l a = []
  calling : ∀ a b, v a = .calling b → ∃ n, v b = .ringing a n
  ringing : ∀ a b n, v a = .ringing b n → v b = .calling a
  talking : ∀ a b, v a = .talking b → b ≠ a ∧ v b = .talking a
  waiting : ∀ a o n, v a = .waiting o n → o ≠ a ∧ a ∈ l o
  paging : ∀ a c, v a = .paging c → ∃ p, pages c = some p ∧ p.station = a
  short : ∀ o, (l o).length ≤ 4
  nodup : ∀ o, (l o).Nodup
  list : ∀ o, ∀ w ∈ l o, ∃ n, v w = .waiting o n
  channel : ∀ c p, pages c = some p → v p.station = .paging c

namespace Fits

variable {v : Station → Standing} {l : Station → List Station} {pages : Channel → Option PageRec} {late : Station → Prop}
  {a b o : Station} {c : Channel} {n m : IdleNotice} {k : Nat}

open Function (update)

theorem part (h : Fits v l pages late)
    (pair : v a = .calling b ∨ (∃ k, v a = .ringing b k) ∨ v a = .talking b) :
    Fits (update (update v a (.idle n)) b (.idle m)) l pages (fun x => x = a ∨ x = b ∨ late x) := by
  cases h
  constructor <;> grind [Function.update_apply]

theorem unqueue (h : Fits v l pages late) (waits : v a = .waiting o k) :
    Fits (update v a (.idle n)) (update l o ((l o).filter fun x => decide (x ≠ a))) pages (fun x => x = a ∨ late x) := by
  cases h
  constructor <;> grind [Function.update_apply, List.length_filter_le]

/-- The first of the list is WAITING on its station and becomes CALLING, and nothing else hangs on either. -/
theorem serve {x : Station} {rest : List Station} (h : Fits v l pages late) (idle : v a = .idle n) (list : l a = x :: rest) :
    Fits (update (update v x (.calling a)) a (.ringing x k)) (update l a rest) pages (fun z => z ≠ a ∧ late z) := by
  obtain ⟨j, waits⟩ := h.list a x (list ▸ List.mem_cons_self)
  have once : x ∉ rest := (List.nodup_cons.mp (list ▸ h.nodup a)).1
  cases h
  constructor <;> grind [Function.update_apply]

theorem served (h : Fits v l pages late) (list : l a = []) : Fits v l pages (fun z => z ≠ a ∧ late z) := by
  cases h
  constructor <;> grind

theorem late_mono {late' : Station → Prop} (h : Fits v l pages late) (mono : ∀ a, late a → late' a) :
    Fits v l pages late' :=
  { h with idle := fun a n idle in_time => h.idle a n idle fun is_late => in_time (mono a is_late) }

theorem leaveGroup {g : Group} (h : Fits v l pages late) (joined : v a = .group g) :
    Fits (update v a (.idle n)) l pages (fun x => x = a ∨ late x) := by
  cases h
  constructor <;> grind [Function.update_apply]

theorem endPage (h : Fits v l pages late) (speaks : v a = .paging c) :
    Fits (update v a (.idle n)) l (update pages c none) (fun x => x = a ∨ late x) := by
  cases h
  constructor <;> grind [Function.update_apply]

/-! Nothing is late in what follows. -/

theorem notice (h : Fits v l pages fun _ => False) (idle : v a = .idle n) :
    Fits (update v a (.idle m)) l pages fun _ => False := by
  cases h
  constructor <;> grind [Function.update_apply]

theorem ring (h : Fits v l pages fun _ => False) (caller : v a = .idle n) (called : v b = .idle m) (other : b ≠ a) :
    Fits (update (update v a (.calling b)) b (.ringing a k)) l pages fun _ => False := by
  cases h
  constructor <;> grind [Function.update_apply]

theorem connect (h : Fits v l pages fun _ => False) (other : b ≠ a)
    (free : (v a = .idle n ∧ v b = .idle m) ∨ v a = .ringing b k) :
    Fits (update (update v a (.talking b)) b (.talking a)) l pages fun _ => False := by
  cases h
  constructor <;> grind [Function.update_apply]

theorem queue (h : Fits v l pages fun _ => False) (caller : v a = .idle n) (other : b ≠ a) (online : v b ≠ .offline)
    (busy : ∀ m, v b ≠ .idle m) (room : (l b).length < 4) :
    Fits (update v a (.waiting b k)) (update l b (l b ++ [a])) pages fun _ => False := by
  have once : a ∉ l b := fun mem => by
    obtain ⟨j, waits⟩ := h.list b a mem
    exact Standing.noConfusion (caller.symm.trans waits)
  have nodup : (l b ++ [a]).Nodup := List.nodup_append.mpr ⟨h.nodup b, List.nodup_singleton a, by grind⟩
  have members : ∀ o w, w ∈ update l b (l b ++ [a]) o ↔ w ∈ l o ∨ o = b ∧ w = a := by grind [Function.update_apply]
  have callers : ∀ o, ∀ w ∈ update l b (l b ++ [a]) o, ∃ j, update v a (.waiting b k) w = .waiting o j := by
    intro o w mem
    rcases (members o w).mp mem with mem | ⟨rfl, rfl⟩
    · obtain ⟨j, waits⟩ := h.list o w mem
      exact ⟨j, by grind [Function.update_apply]⟩
    · exact ⟨k, Function.update_self ..⟩
  cases h
  constructor <;> grind [Function.update_apply]

theorem joinGroup {g : Group} (h : Fits v l pages fun _ => False) (idle : v a = .idle n) :
    Fits (update v a (.group g)) l pages fun _ => False := by
  cases h
  constructor <;> grind [Function.update_apply]

theorem admission {p : PageRec} (h : Fits v l pages fun _ => False) (idle : v p.station = .idle n) (free : pages c = none) :
    Fits (update v p.station (.paging c)) l (update pages c (some p)) fun _ => False := by
  cases h
  constructor <;> grind [Function.update_apply]

theorem comeOnline (h : Fits v l pages fun _ => False) (offline : v a = .offline) :
    Fits (update v a (.idle n)) l pages fun _ => False := by
  cases h
  constructor <;> grind [Function.update_apply]

end Fits

/-- Two standings that differ in a notice or a timer at most. -/
def Standing.like (v w : Standing) : Prop :=
  v = w ∨ (∃ n m, v = .idle n ∧ w = .idle m) ∨ (∃ p j k, v = .ringing p j ∧ w = .ringing p k)
    ∨ ∃ o j k, v = .waiting o j ∧ w = .waiting o k

/-- The structure reads no notice, no timer, and of a page its station alone. -/
theorem Fits.congr {v v' : Station → Standing} {l : Station → List Station} {pages pages' : Channel → Option PageRec}
    (h : Fits v l pages fun _ => False) (standings : ∀ a, (v a).like (v' a))
    (channels : ∀ c, (pages' c).map PageRec.station = (pages c).map PageRec.station) : Fits v' l pages' fun _ => False := by
  have kept : ∀ c p, pages c = some p → ∃ p', pages' c = some p' ∧ p'.station = p.station := fun c p used =>
    Option.map_eq_some_iff.mp ((channels c).trans (used ▸ rfl))
  have brought : ∀ c p', pages' c = some p' → ∃ p, pages c = some p ∧ p.station = p'.station := fun c p used =>
    Option.map_eq_some_iff.mp ((channels c).symm.trans (used ▸ rfl))
  unfold Standing.like at standings
  cases h
  constructor <;> grind

end Sys2Proof.Machine

namespace Sys2Proof

theorem Table.get_set_eq_update {n : Nat} {α : Type} (t : Table n α) (i : Fin n) (x : α) :
    (t.set i x).get = Function.update t.get i x := by
  funext j
  rw [Table.get_set, Function.update_apply]

end Sys2Proof

namespace Sys2Proof.Machine

/-! ## The structure in IS's record -/

/-- What each station stands in. -/
def Ic.standings (c : Ic) (a : Station) : Standing := (c.stations.get a).standing

/-- Each station's waiting list. -/
def Ic.lists (c : Ic) (a : Station) : List Station := (c.stations.get a).waiting

/-- IS awaits no answer, its stations are in one conversation structure but for those of `late`, which have yet to serve, and
they are online where their ports reach them. -/
structure Ic.orderly (c : Ic) (late : Station → Prop) : Prop where
  fits : Fits c.standings c.lists c.channels.get late
  online : ∀ a, c.onlineRight a
  free : c.awaiting = none

/-- What a standing of station `a` says of the tables. -/
def Ic.says (c : Ic) (a : Station) : Standing → Prop
  | .offline => c.lists a = []
  | .idle _ => c.lists a = []
  | .calling p => ∃ n, c.standings p = .ringing a n
  | .ringing p _ => c.standings p = .calling a
  | .talking p => p ≠ a ∧ c.standings p = .talking a
  | .waiting o _ => o ≠ a ∧ a ∈ c.lists o
  | .group _ => True
  | .paging ch => ∃ p, c.channels.get ch = some p ∧ p.station = a

theorem Ic.standingSound_iff (c : Ic) (a : Station) : c.standingSound a ↔ c.says a (c.standings a) := Iff.rfl

theorem Ic.fits_of_sound {c : Ic} (h : c.sound) : Fits c.standings c.lists c.channels.get fun _ => False := by
  obtain ⟨stations, channels, -⟩ := h
  have standing {a : Station} {v : Standing} (h : c.standings a = v) : c.says a v := h ▸ (stations a).1
  exact
    { offline := fun a h => standing h
      idle := fun a n h _ => standing h
      calling := fun a b h => standing h
      ringing := fun a b n h => standing h
      talking := fun a b h => standing h
      waiting := fun a o n h => standing h
      paging := fun a ch h => standing h
      short := fun o => (stations o).2.1.1
      nodup := fun o => (stations o).2.1.2.1
      list := fun o => (stations o).2.1.2.2
      channel := channels }

theorem Ic.sound_of_fits {c : Ic} (h : Fits c.standings c.lists c.channels.get fun _ => False)
    (online : ∀ a, c.onlineRight a) (wait : c.waitSound) : c.sound := by
  refine ⟨fun a => ⟨?_, ⟨h.short a, h.nodup a, h.list a⟩, online a⟩, h.channel, wait⟩
  rw [Ic.standingSound_iff]
  cases stands : c.standings a with
  | offline => exact h.offline a stands
  | idle n => exact h.idle a n stands id
  | calling b => exact h.calling a b stands
  | ringing b n => exact h.ringing a b n stands
  | talking b => exact h.talking a b stands
  | waiting o n => exact h.waiting a o n stands
  | group g => trivial
  | paging ch => exact h.paging a ch stands

theorem Ic.sound.orderly {c : Ic} (h : c.sound) (free : c.awaiting = none) : c.orderly fun _ => False :=
  ⟨Ic.fits_of_sound h, fun a => (h.1 a).2.2, free⟩

theorem Ic.orderly.sound {c : Ic} (h : c.orderly fun _ => False) : c.sound :=
  Ic.sound_of_fits h.fits h.online fun _ waits => absurd (h.free.symm.trans waits) nofun

/-- A change of IS's record that leaves the ports and who is online. -/
theorem Ic.orderly.change {c d : Ic} {late late' : Station → Prop} (h : c.orderly late)
    (fits : Fits d.standings d.lists d.channels.get late') (online : ∀ a, (d.standings a).online = (c.standings a).online)
    (ports : d.ports = c.ports) (awaiting : d.awaiting = c.awaiting) : d.orderly late' :=
  ⟨fits, fun a => (online a).trans (ports ▸ h.online a), awaiting.trans h.free⟩

/-! ## What the updates of IS's record do to it -/

section
variable (s : State) (a : Station) (v : Standing) (l : List Station) (c : Channel)

@[simp] theorem State.standingSet_standings : (s.standingSet a v).ic.standings = Function.update s.ic.standings a v := by
  funext b
  rw [Function.update_apply]
  exact s.standingSet_standing a v b

@[simp] theorem State.standingSet_lists : (s.standingSet a v).ic.lists = s.ic.lists :=
  funext (s.standingSet_waiting a v)

@[simp] theorem State.standingSet_channels : (s.standingSet a v).ic.channels = s.ic.channels := rfl
@[simp] theorem State.standingSet_ports : (s.standingSet a v).ic.ports = s.ic.ports := rfl
@[simp] theorem State.standingSet_awaiting : (s.standingSet a v).ic.awaiting = s.ic.awaiting := rfl

theorem State.setStanding_ic : (s.setStanding a v).ic = (s.standingSet a v).ic := by
  rw [State.setStanding_eq]
  rfl

@[simp] theorem State.setStanding_standings : (s.setStanding a v).ic.standings = Function.update s.ic.standings a v := by
  rw [State.setStanding_ic, State.standingSet_standings]

@[simp] theorem State.setStanding_lists : (s.setStanding a v).ic.lists = s.ic.lists := by
  rw [State.setStanding_ic, State.standingSet_lists]

@[simp] theorem State.setStanding_channels : (s.setStanding a v).ic.channels = s.ic.channels := by
  rw [State.setStanding_ic, State.standingSet_channels]

@[simp] theorem State.setStanding_ports : (s.setStanding a v).ic.ports = s.ic.ports := by
  rw [State.setStanding_ic, State.standingSet_ports]

@[simp] theorem State.setStanding_awaiting : (s.setStanding a v).ic.awaiting = s.ic.awaiting := by
  rw [State.setStanding_ic, State.standingSet_awaiting]

@[simp] theorem State.listSet_standings : (s.listSet a l).ic.standings = s.ic.standings :=
  funext fun b => s.listSet_standing a b l

@[simp] theorem State.listSet_lists : (s.listSet a l).ic.lists = Function.update s.ic.lists a l := by
  funext b
  rw [Function.update_apply]
  exact s.listSet_waiting a b l

@[simp] theorem State.listSet_channels : (s.listSet a l).ic.channels = s.ic.channels := rfl
@[simp] theorem State.listSet_ports : (s.listSet a l).ic.ports = s.ic.ports := rfl
@[simp] theorem State.listSet_awaiting : (s.listSet a l).ic.awaiting = s.ic.awaiting := rfl

@[simp] theorem State.releasePage_standings : (s.releasePage c).ic.standings = s.ic.standings := by
  rw [State.releasePage_eq]; rfl

@[simp] theorem State.releasePage_lists : (s.releasePage c).ic.lists = s.ic.lists := by
  rw [State.releasePage_eq]; rfl

@[simp] theorem State.releasePage_channels : (s.releasePage c).ic.channels = s.ic.channels.set c none := by
  rw [State.releasePage_eq]

@[simp] theorem State.releasePage_ports : (s.releasePage c).ic.ports = s.ic.ports := by
  rw [State.releasePage_eq]

@[simp] theorem State.releasePage_awaiting : (s.releasePage c).ic.awaiting = s.ic.awaiting := by
  rw [State.releasePage_eq]

end

theorem Ic.lists_eq (c : Ic) (a : Station) : c.lists a = (c.stations.get a).waiting := rfl

theorem Ic.standings_eq (c : Ic) (a : Station) : c.standings a = (c.stations.get a).standing := rfl

theorem update_online {v : Station → Standing} {a : Station} {w : Standing} (same : w.online = (v a).online) (b : Station) :
    (Function.update v a w b).online = (v b).online := by
  rw [Function.update_apply]
  split
  · subst_vars; exact same
  · rfl

/-- Two stations move, neither into OFFLINE nor out of it. -/
theorem update_update_online {v : Station → Standing} {a b : Station} {w x : Standing} (same_a : w.online = (v a).online)
    (same_b : x.online = (v b).online) (c : Station) :
    (Function.update (Function.update v a w) b x c).online = (v c).online := by
  rw [Function.update_apply]
  split
  · subst_vars; exact same_b
  · exact update_online same_a c

/-! ## Serving -/

section
variable {s : State} {late : Station → Prop} {a b : Station}

/-- An IDLE station serves its list, and is late no more. -/
theorem State.serve_fits (h : Fits s.ic.standings s.ic.lists s.ic.channels.get late) (idle : s.stationIdle a) :
    Fits (s.serve a).ic.standings (s.serve a).ic.lists (s.serve a).ic.channels.get fun z => z ≠ a ∧ late z := by
  obtain ⟨n, idle⟩ : ∃ n, s.ic.standings a = .idle n := idle
  cases list : s.ic.lists a with
  | nil =>
    rw [State.serve_of_nil list]
    exact h.served list
  | cons x rest =>
    rw [State.serve_of_cons list, State.ring]
    simpa using h.serve idle list

theorem Ic.orderly.serve (h : s.ic.orderly late) (idle : s.stationIdle a) :
    (s.serve a).ic.orderly fun z => z ≠ a ∧ late z := by
  have fits := State.serve_fits h.fits idle
  obtain ⟨n, idle⟩ : ∃ n, s.ic.standings a = .idle n := idle
  cases list : s.ic.lists a with
  | nil =>
    rw [State.serve_of_nil list] at fits ⊢
    exact ⟨fits, h.online, h.free⟩
  | cons x rest =>
    obtain ⟨k, waits⟩ := h.fits.list a x (list ▸ List.mem_cons_self)
    rw [State.serve_of_cons list, State.ring] at fits ⊢
    refine h.change fits ?_ (by simp) (by simp)
    simpa using update_update_online (waits ▸ rfl) (idle ▸ rfl)

/-- Another IDLE station stays so. -/
theorem State.stationIdle.serve (idle_b : s.stationIdle b) (h : Fits s.ic.standings s.ic.lists s.ic.channels.get late)
    (other : b ≠ a) : (s.serve a).stationIdle b := by
  cases list : s.ic.lists a with
  | nil => rwa [State.serve_of_nil list]
  | cons x rest =>
    obtain ⟨n, idle⟩ : ∃ n, s.ic.standings b = .idle n := idle_b
    obtain ⟨k, waits⟩ := h.list a x (list ▸ List.mem_cons_self)
    have apart : b ≠ x := fun e => Standing.noConfusion ((e ▸ waits : s.ic.standings b = .waiting a k).symm.trans idle)
    refine ⟨n, ?_⟩
    rw [State.serve_of_cons list, State.ring, ← Ic.standings_eq]
    simpa [other, apart] using idle

theorem Ic.orderly.none_late {c : Ic} (h : c.orderly late) (none_late : ∀ a, ¬late a) : c.orderly fun _ => False :=
  ⟨h.fits.late_mono fun a is_late => none_late a is_late, h.online, h.free⟩

end

/-! ## Leaving -/

/-- Stations `a` and `b` are the parties of a call that `a` makes, is rung by, or speaks in. -/
def Ic.partners (c : Ic) (a b : Station) : Prop :=
  c.standings a = .calling b ∨ (∃ n, c.standings a = .ringing b n) ∨ c.standings a = .talking b

section
variable {s : State} {a b o : Station} (h : s.ic.orderly fun _ => False)
include h

/-- The parties of a call are two stations, both online. -/
theorem Ic.orderly.partners_apart (pair : s.ic.partners a b) :
    a ≠ b ∧ (s.ic.standings a).online = true ∧ (s.ic.standings b).online = true := by
  rcases pair with calls | ⟨n, rings⟩ | talks
  · obtain ⟨n, rings⟩ := h.fits.calling a b calls
    refine ⟨?_, calls ▸ rfl, rings ▸ rfl⟩
    rintro rfl
    exact Standing.noConfusion (rings.symm.trans calls)
  · have calls := h.fits.ringing a b n rings
    refine ⟨?_, rings ▸ rfl, calls ▸ rfl⟩
    rintro rfl
    exact Standing.noConfusion (calls.symm.trans rings)
  · obtain ⟨other, talks'⟩ := h.fits.talking a b talks
    exact ⟨other.symm, talks ▸ rfl, talks' ▸ rfl⟩

theorem Ic.orderly.partCall (pair : s.ic.partners a b) (nb : IdleNotice) :
    (s.partCall a b nb).ic.orderly fun _ => False := by
  obtain ⟨other, online_a, online_b⟩ := h.partners_apart pair
  have parted : ((s.setIdle .quiet a).setIdle nb b).ic.orderly fun x => x = a ∨ x = b ∨ False := by
    simp only [State.setIdle]
    refine h.change ?_ ?_ (by simp) (by simp)
    · simpa using h.fits.part pair
    · simpa using update_update_online (w := .idle .quiet) (x := .idle nb) online_a.symm online_b.symm
  have idle_a : ((s.setIdle .quiet a).setIdle nb b).stationIdle a :=
    ⟨.quiet, by simp [← Ic.standings_eq, State.setIdle, other]⟩
  have idle_b : ((s.setIdle .quiet a).setIdle nb b).stationIdle b :=
    ⟨nb, by simp [← Ic.standings_eq, State.setIdle]⟩
  refine ((parted.serve idle_a).serve (idle_b.serve parted.fits other.symm)).none_late ?_
  rintro z ⟨not_b, not_a, rfl | rfl | no⟩
  · exact not_a rfl
  · exact not_b rfl
  · exact no

omit h in
/-- A station that alone is late, IDLE, serves its list. -/
theorem Ic.orderly.serve_alone {t : State} (late : t.ic.orderly fun x => x = a ∨ False) (idle : t.stationIdle a) :
    (t.serve a).ic.orderly fun _ => False :=
  (late.serve idle).none_late fun _ ⟨other, is_late⟩ => is_late.elim other id

theorem Ic.orderly.leaveList {n : Nat} (waits : s.ic.standings a = .waiting o n) (m : IdleNotice) :
    (((s.unqueue a o).setIdle m a).serve a).ic.orderly fun _ => False := by
  refine Ic.orderly.serve_alone ?_ ⟨m, by simp [← Ic.standings_eq, State.setIdle]⟩
  simp only [State.setIdle, State.unqueue_eq]
  refine h.change ?_ ?_ (by simp) (by simp)
  · simpa [← Ic.lists_eq] using h.fits.unqueue waits
  · simpa using update_online (waits ▸ rfl)

theorem Ic.orderly.leaveGroup {g : Group} (joined : s.ic.standings a = .group g) :
    ((s.setIdle .quiet a).serve a).ic.orderly fun _ => False := by
  refine Ic.orderly.serve_alone ?_ ⟨.quiet, by simp [← Ic.standings_eq, State.setIdle]⟩
  simp only [State.setIdle]
  refine h.change ?_ ?_ (by simp) (by simp)
  · simpa using h.fits.leaveGroup joined
  · simpa using update_online (joined ▸ rfl)

theorem Ic.orderly.endPage {c : Channel} (speaks : s.ic.standings a = .paging c) :
    (s.endPage c a).ic.orderly fun _ => False := by
  refine Ic.orderly.serve_alone ?_ ⟨.quiet, by simp [← Ic.standings_eq, State.setIdle]⟩
  simp only [State.setIdle]
  refine h.change ?_ ?_ (by simp) (by simp)
  · simpa [Table.get_set_eq_update] using h.fits.endPage speaks
  · simpa using update_online (speaks ▸ rfl)

theorem Ic.orderly.clearStation (a : Station) : (s.clearStation a).ic.orderly fun _ => False := by
  rw [State.clearStation, State.station_eq]
  split
  case h_1 p calls => exact h.partCall (.inl calls) .quiet
  case h_2 p n rings => exact h.partCall (.inr (.inl ⟨n, rings⟩)) .noAnswer
  case h_3 p talks => exact h.partCall (.inr (.inr talks)) .quiet
  case h_4 o n waits => exact h.leaveList waits .quiet
  case h_5 g joined => exact h.leaveGroup joined
  case h_6 c speaks => exact h.endPage speaks
  case h_7 | h_8 => exact h

/-! ## Station events -/

theorem Ic.orderly.setIdle (idle : s.stationIdle a) (n : IdleNotice) : (s.setIdle n a).ic.orderly fun _ => False := by
  obtain ⟨m, idle⟩ : ∃ m, s.ic.standings a = .idle m := idle
  refine h.change ?_ ?_ (by simp [State.setIdle]) (by simp [State.setIdle])
  · simpa [State.setIdle] using h.fits.notice idle
  · simpa [State.setIdle] using update_online (idle ▸ rfl)

theorem Ic.orderly.connect (other : b ≠ a)
    (free : s.stationIdle a ∧ s.stationIdle b ∨ ∃ n, s.ic.standings a = .ringing b n) :
    (s.connect a b).ic.orderly fun _ => False := by
  rw [State.connect_eq]
  refine h.change ?_ ?_ (by simp) (by simp)
  · rcases free with ⟨⟨n, idle_a⟩, m, idle_b⟩ | ⟨n, rings⟩
    · simpa using h.fits.connect (k := 0) other (.inl ⟨idle_a, idle_b⟩)
    · simpa using h.fits.connect (n := .quiet) (m := .quiet) other (.inr rings)
  · have online : (s.ic.standings a).online = true ∧ (s.ic.standings b).online = true := by
      rcases free with ⟨⟨n, idle_a⟩, m, idle_b⟩ | ⟨n, rings⟩
      · exact ⟨congrArg Standing.online idle_a, congrArg Standing.online idle_b⟩
      · exact (h.partners_apart (.inr (.inl ⟨n, rings⟩))).2
    simpa using update_update_online (w := .talking b) (x := .talking a) online.1.symm online.2.symm

theorem Ic.orderly.ring (caller : s.stationIdle a) (called : s.stationIdle b) (other : b ≠ a) :
    (s.ring a b).ic.orderly fun _ => False := by
  obtain ⟨n, caller⟩ : ∃ n, s.ic.standings a = .idle n := caller
  obtain ⟨m, called⟩ : ∃ m, s.ic.standings b = .idle m := called
  rw [State.ring]
  refine h.change ?_ ?_ (by simp) (by simp)
  · simpa using h.fits.ring caller called other
  · simpa using update_update_online (w := .calling b) (x := .ringing a s.ic.ringTimeout) (caller ▸ rfl) (called ▸ rfl)

theorem Ic.orderly.queue (caller : s.stationIdle a) (other : b ≠ a) (online : s.ic.standings b ≠ .offline)
    (busy : ∀ m, s.ic.standings b ≠ .idle m) (room : (s.ic.lists b).length < 4) (k : Nat) :
    ((s.listSet b (s.ic.lists b ++ [a])).setStanding a (.waiting b k)).ic.orderly fun _ => False := by
  obtain ⟨n, caller⟩ : ∃ n, s.ic.standings a = .idle n := caller
  refine h.change ?_ ?_ (by simp) (by simp)
  · simpa using h.fits.queue caller other online busy room
  · simpa using update_online (caller ▸ rfl)

theorem Ic.orderly.placeCall (caller : s.stationIdle a) (target : Nat) :
    (s.placeCall a target).ic.orderly fun _ => False := by
  have denied : (s.deny a).ic.orderly fun _ => False := h.setIdle caller .busyDenied
  rw [State.placeCall]
  split
  case isTrue => exact denied
  case isFalse =>
    split
    case h_1 => exact denied
    case h_2 b _ =>
      split
      case isTrue => exact denied
      case isFalse other =>
        split
        case h_1 => exact denied
        case h_2 n idle => exact h.ring caller ⟨n, idle⟩ other
        case h_3 online busy =>
          split
          case isTrue => exact denied
          case isFalse room => exact h.queue caller other online busy (Nat.not_le.mp room) s.ic.waitTimeout

theorem Ic.orderly.takeCall (a : Station) (target : Nat) : (s.takeCall a target).ic.orderly fun _ => False := by
  rw [State.takeCall]
  split
  case h_1 n idle => exact h.placeCall ⟨n, idle⟩ target
  case h_2 b n rings =>
    split
    case isTrue => exact h.connect (h.partners_apart (.inr (.inl ⟨n, rings⟩))).1.symm (.inr ⟨n, rings⟩)
    case isFalse => exact h
  case h_3 => exact h

theorem Ic.orderly.takeAnswer (a : Station) : (s.takeAnswer a).ic.orderly fun _ => False := by
  rw [State.takeAnswer]
  split
  case h_1 b n rings => exact h.connect (h.partners_apart (.inr (.inl ⟨n, rings⟩))).1.symm (.inr ⟨n, rings⟩)
  case h_2 => exact h

theorem Ic.orderly.joinGroup (a : Station) (group : Nat) : (s.joinGroup a group).ic.orderly fun _ => False := by
  rw [State.joinGroup]
  split
  case isTrue => exact h
  case isFalse not_busy =>
    have idle : s.stationIdle a := (Standing.isIdle_iff _).mp (by simpa using not_busy)
    have denied : (s.deny a).ic.orderly fun _ => False := h.setIdle idle .busyDenied
    split
    case isTrue => exact denied
    case isFalse =>
      split
      case h_1 g _ =>
        split
        case isTrue =>
          obtain ⟨n, idle⟩ : ∃ n, s.ic.standings a = .idle n := idle
          refine h.change ?_ ?_ (by simp) (by simp)
          · simpa using h.fits.joinGroup idle
          · simpa using update_online (idle ▸ rfl)
        case isFalse => exact denied
      case h_2 => exact denied

omit h in
theorem Ic.free_of_freeChannel {i : Ic} {c : Channel} (free : i.freeChannel = some c) : i.channels.get c = none :=
  Option.isNone_iff_eq_none.mp (List.find?_some (p := fun c => (i.channels.get c).isNone) free)

/-- A page that awaits ZM's answer is an IDLE station's, and its channel is free (R101). -/
theorem Ic.orderly.takePage (a : Station) (set : Nat) (e : Bool) : (s.takePage a set e).ic.sound := by
  rw [State.takePage]
  split
  case isTrue => exact h.sound
  case isFalse not_busy =>
    have idle : s.stationIdle a := (Standing.isIdle_iff _).mp (by simpa using not_busy)
    have denied : (s.deny a).ic.sound := (h.setIdle idle .busyDenied).sound
    split
    case isTrue => exact denied
    case isFalse =>
      split
      case h_1 z c _ free =>
        refine Ic.sound_of_fits h.fits h.online ?_
        rintro w ⟨rfl⟩
        exact ⟨(Standing.isIdle_iff _).mpr idle, Ic.free_of_freeChannel free⟩
      case h_2 => exact denied

/-- A station's record with another standing in the tables' terms: what `f` does not touch is no matter. -/
theorem Ic.orderly.modStation (a : Station) (f : StationRec → StationRec)
    (standing : ∀ r, (f r).standing = r.standing) (waiting : ∀ r, (f r).waiting = r.waiting) :
    (s.modStation a f).ic.orderly fun _ => False := by
  have standings : (s.modStation a f).ic.standings = s.ic.standings := funext fun b => by
    simp only [Ic.standings, State.modStation, State.modIc, Table.get_modify]
    split
    · subst_vars; exact standing _
    · rfl
  have lists : (s.modStation a f).ic.lists = s.ic.lists := funext fun b => by
    simp only [Ic.lists, State.modStation, State.modIc, Table.get_modify]
    split
    · subst_vars; exact waiting _
    · rfl
  refine h.change ?_ (fun b => by rw [standings]) rfl rfl
  rw [standings, lists]
  exact h.fits

theorem Ic.orderly.setKey (a : Station) (down : Bool) : (s.setKey a down).ic.orderly fun _ => False :=
  h.modStation a _ (fun _ => rfl) fun _ => rfl

end

end Sys2Proof.Machine

namespace Sys2Proof.Machine

/-- Stations that are OFFLINE or IDLE, with nobody waiting and no page. -/
theorem Fits.of_alone {v : Station → Standing} {l : Station → List Station} {pages : Channel → Option PageRec}
    (alone : ∀ a, v a = .offline ∨ ∃ n, v a = .idle n) (nobody : ∀ a, l a = []) (unused : ∀ c, pages c = none) :
    Fits v l pages fun _ => False := by
  constructor <;> grind

/-! ## Timers, chimes, pages -/

section
variable {s : State} (h : s.ic.orderly fun _ => False)
include h

/-- A change of IS's record that keeps the lists, every standing but for its notice or timer, and every page's station. -/
theorem Ic.orderly.alike {d : Ic} (standings : ∀ a, (s.ic.standings a).like (d.standings a)) (lists : d.lists = s.ic.lists)
    (channels : ∀ c, (d.channels.get c).map PageRec.station = (s.ic.channels.get c).map PageRec.station)
    (ports : d.ports = s.ic.ports) (awaiting : d.awaiting = s.ic.awaiting) : d.orderly fun _ => False := by
  refine Ic.orderly.change h ?_ (fun a => ?_) ports awaiting
  · rw [lists]
    exact h.fits.congr standings channels
  · rcases standings a with same | ⟨n, m, was, is⟩ | ⟨p, j, k, was, is⟩ | ⟨o, j, k, was, is⟩
    · rw [same]
    all_goals
      rw [was, is]
      rfl

omit h in
theorem Standing.like_aged (v : Standing) : v.like v.aged := by
  cases v with
  | ringing p n => exact .inr (.inr (.inl ⟨p, n, n - 1, rfl, rfl⟩))
  | waiting o n => exact .inr (.inr (.inr ⟨o, n, n - 1, rfl, rfl⟩))
  | _ => exact .inl rfl

theorem Ic.orderly.aged : s.ic.aged.orderly fun _ => False := by
  refine h.alike (fun a => ?_) (funext fun a => ?_) (fun c => ?_) rfl rfl
  · simpa [Ic.standings, Ic.aged] using (s.ic.standings a).like_aged
  · simp [Ic.lists, Ic.aged]
  · simp [Ic.aged, Function.comp_def]

theorem Ic.orderly.ringExpired (a : Station) : (s.ringExpired a).ic.orderly fun _ => False := by
  rw [State.ringExpired]
  split
  case h_1 b n rings => exact h.partCall (.inr (.inl ⟨n, rings⟩)) .noAnswer
  case h_2 => exact h

theorem Ic.orderly.waitExpired (a : Station) : (s.waitExpired a).ic.orderly fun _ => False := by
  rw [State.waitExpired]
  split
  case h_1 o n waits => exact h.leaveList waits .noAnswer
  case h_2 => exact h

theorem Ic.orderly.pageExpired (c : Channel) : (s.pageExpired c).ic.orderly fun _ => False := by
  rw [State.pageExpired]
  split
  case h_1 p used => exact h.endPage (h.fits.channel c p used)
  case h_2 => exact h

theorem Ic.orderly.expireAt (a : Station) : (s.expireAt a).ic.orderly fun _ => False := by
  rw [State.expireAt]
  split
  case h_1 => exact h.ringExpired a
  case h_2 => exact h.waitExpired a
  case h_3 c _ =>
    split
    case isTrue => exact h.pageExpired c
    case isFalse => exact h
  case h_4 => exact h

/-- A page's record with the same station. -/
theorem Ic.orderly.setPage {t : State} {c : Channel} {p q : PageRec} (used : s.ic.channels.get c = some p)
    (same : q.station = p.station) (ic : t.ic = { s.ic with channels := s.ic.channels.set c (some q) }) :
    t.ic.orderly fun _ => False := by
  rw [ic]
  refine h.alike (fun _ => .inl rfl) rfl (fun d => ?_) rfl rfl
  rw [Table.get_set]
  split
  · subst_vars
    rw [used, Option.map_some, Option.map_some, same]
  · rfl

theorem Ic.orderly.openPage (c : Channel) : (s.openPage c).ic.orderly fun _ => False := by
  rw [State.openPage]
  split
  case h_1 p used => exact h.setPage (q := { p with phase := .opened, gen := none }) used rfl rfl
  case h_2 => exact h

theorem Ic.orderly.pageChimePeriod (c : Channel) : (s.pageChimePeriod c).ic.orderly fun _ => False := by
  rw [State.pageChimePeriod]
  split
  case h_1 p used =>
    split
    case h_1 g _ _ =>
      dsimp only
      split
      case h_1 g' _ => exact h.setPage (q := { p with gen := some g' }) used rfl rfl
      case h_2 => exact Ic.orderly.openPage (s := s.deliver (.pageChime c) g.samples) h c
    case h_2 => exact h
  case h_2 => exact h

theorem Ic.orderly.periodStart (first : List Station) :
    ((List.finRange 8).foldl State.pageChimePeriod
      ((first ++ List.finRange 64).foldl State.expireAt (s.modIc Ic.aged))).ic.orderly fun _ => False :=
  foldl_keeps _ (fun t : State => t.ic.orderly fun _ => False) (fun _ c h => h.pageChimePeriod c) _ _
    (foldl_keeps _ (fun t : State => t.ic.orderly fun _ => False) (fun _ a h => h.expireAt a) _ _ h.aged)

/-! ## Teardown -/

/-- Every page ended, every station that is online IDLE with an empty list. -/
theorem Ic.orderly.icTornDown : s.icTornDown.ic.orderly fun _ => False := by
  rw [State.icTornDown_eq]
  refine Ic.orderly.change h (Fits.of_alone (fun a => ?_) (fun a => ?_) (fun c => Table.get_fill none c)) (fun a => ?_) rfl rfl
  all_goals
    simp only [State.icWith, Ic.standings, Ic.lists, Table.get_update, StationRec.tornDown]
    split
  · exact .inl ‹_›
  · exact .inr ⟨.quiet, rfl⟩
  · exact h.fits.offline a ‹_›
  · rfl
  · rfl
  · exact ((Standing.online_iff _).mpr ‹_›).symm

/-! ## Settings -/

theorem Ic.orderly.setStation (a : Station) (auth : Authority) (groups : BitVec 8) (listen : Nat) :
    (s.setStation a auth groups listen).ic.orderly fun _ => False := by
  have stored : ((s.modStation a fun r => { r with authority := auth, groups := groups, listen := listen }).sendZm .is
      (.listen a listen)).ic.orderly fun _ => False := h.modStation a _ (fun _ => rfl) fun _ => rfl
  rw [State.setStation]
  split
  case h_1 g joined =>
    split
    case isTrue => exact stored
    case isFalse =>
      refine stored.leaveGroup (g := g) ?_
      simpa [Ic.standings, State.modStation, State.modIc] using joined
  case h_2 => exact stored

end

/-! ## ZM's answer to a page (R101, R102) -/

/-- The page that an admission brings onto its channel. -/
def State.pageAdmitted (s : State) (w : PageWait) (m : ZoneMask) : PageRec where
  station := w.station
  cls := w.cls
  set := w.set
  admitted := m
  phase := if w.chime then .chime else .opened
  left := s.ic.pageLimit
  gen := if w.chime then some (Gen.chime s.mau.store) else none

/-- The station of a page that is admitted was IDLE, its channel free. -/
theorem Ic.orderly.admitPage {s : State} {w : PageWait} (h : s.ic.orderly fun _ => False) (idle : s.stationIdle w.station)
    (free : s.ic.channels.get w.channel = none) (m : ZoneMask) : (s.admitPage w m).ic.orderly fun _ => False := by
  obtain ⟨n, idle⟩ : ∃ n, s.ic.standings w.station = .idle n := idle
  have standings : (s.admitPage w m).ic.standings = Function.update s.ic.standings w.station (.paging w.channel) :=
    State.setStanding_standings ..
  have lists : (s.admitPage w m).ic.lists = s.ic.lists := State.setStanding_lists ..
  have channels : (s.admitPage w m).ic.channels.get =
      Function.update s.ic.channels.get w.channel (some (s.pageAdmitted w m)) :=
    (congrArg Table.get (State.setStanding_channels ..)).trans (Table.get_set_eq_update ..)
  refine h.change ?_ ?_ (State.setStanding_ports ..) (State.setStanding_awaiting ..)
  · rw [standings, lists, channels]
    exact h.fits.admission (p := s.pageAdmitted w m) idle free
  · rw [standings]
    exact update_online (idle ▸ rfl)

theorem Ic.sound.pageAnswer {s : State} {w : PageWait} (h : s.ic.sound) (waits : s.ic.awaiting = some w) (m : ZoneMask) :
    (s.pageAnswer w m).ic.orderly fun _ => False := by
  obtain ⟨idle, free⟩ := h.2.2 w waits
  have idle : s.stationIdle w.station := (Standing.isIdle_iff _).mp idle
  have freed : ((s.modNet fun n => n.setAnswer .is none).modIc fun i => { i with awaiting := none }).ic.orderly
      fun _ => False :=
    ⟨(Ic.fits_of_sound h : Fits s.ic.standings s.ic.lists s.ic.channels.get fun _ => False), fun a => (h.1 a).2.2, rfl⟩
  unfold State.pageAnswer
  split
  case isTrue => exact freed.setIdle idle .busyDenied
  case isFalse => exact freed.admitPage idle free m

end Sys2Proof.Machine

namespace Sys2Proof.Machine

/-! ## IS's tables and what it has sent -/

section
variable (s : State) (channels channels' : Table 8 (Option PageRec)) (stations stations' : Table 64 StationRec)
  (sent sent' : List ZmMsg)

@[simp] theorem State.icWith_channels : (s.icWith channels stations sent).ic.channels = channels := rfl
@[simp] theorem State.icWith_stations : (s.icWith channels stations sent).ic.stations = stations := rfl
@[simp] theorem State.icWith_isToZm : (s.icWith channels stations sent).net.isToZm = sent := rfl

@[simp] theorem State.icWith_icWith :
    (s.icWith channels stations sent).icWith channels' stations' sent' = s.icWith channels' stations' sent' := rfl

end

/-! ## Stations that go OFFLINE (R91) -/

/-- A station gone OFFLINE keeps its settings. -/
def StationRec.lost (r : StationRec) : StationRec :=
  { r with standing := .offline, keyDown := false, waiting := [], counter := none }

/-- What ZM is sent of a standing that ends in IDLE or OFFLINE (R92). -/
def Standing.endSends (v : Standing) (a : Station) : List ZmMsg :=
  if v.conv = .none then [] else [.standing a .none]

/-- What the loss of a station sends ZM: its page's end, its key, its standing. -/
def State.lossSends (s : State) (a : Station) : List ZmMsg :=
  (match (s.ic.stations.get a).standing with
    | .paging c => pageEndSends c (s.ic.channels.get c)
    | _ => [])
    ++ (if (s.ic.stations.get a).keyDown then [.talkKey a false] else [])
    ++ (s.ic.stations.get a).standing.endSends a

/-- `s` with the stations of a list gone OFFLINE, those they leave behind not yet moved. -/
def State.lost (s : State) (gone : List Station) : State :=
  s.icWith (s.ic.channels.update fun _ p => p.bind fun page => if page.station ∈ gone then none else some page)
    (s.ic.stations.update fun a r =>
      if a ∈ gone then r.lost else { r with waiting := r.waiting.filter fun x => decide (x ∉ gone) })
    (s.net.isToZm ++ gone.flatMap s.lossSends)

theorem State.lost_nil (s : State) : s.lost [] = s := by
  have channels : (s.ic.channels.update fun _ p => p.bind fun page => if page.station ∈ [] then none else some page) =
      s.ic.channels := Table.update_eq_self _ _ fun c => by simp
  have stations : (s.ic.stations.update fun a r =>
      if a ∈ [] then r.lost else { r with waiting := r.waiting.filter fun x => decide (x ∉ []) }) = s.ic.stations :=
    Table.update_eq_self _ _ fun a => by simp
  rw [State.lost, channels, stations]
  simp [State.icWith]

/-- The list a station stands on, and the page it speaks through, are left. -/
theorem State.leaveConversation_eq (s : State) (a : Station) :
    s.leaveConversation a =
      s.icWith
        (match (s.ic.stations.get a).standing with
          | .paging c => s.ic.channels.set c none
          | _ => s.ic.channels)
        (match (s.ic.stations.get a).standing with
          | .waiting o _ =>
            s.ic.stations.modify o fun r => { r with waiting := r.waiting.filter fun x => decide (x ≠ a) }
          | _ => s.ic.stations)
        (s.net.isToZm ++
          match (s.ic.stations.get a).standing with
          | .paging c => pageEndSends c (s.ic.channels.get c)
          | _ => []) := by
  rw [State.leaveConversation, State.station_eq]
  cases (s.ic.stations.get a).standing with
  | waiting o n => simp [State.unqueue, State.modStation, State.modIc, State.icWith]
  | paging c => exact s.releasePage_eq c
  | _ => simp [State.icWith]

theorem State.setKey_eq (s : State) (a : Station) (down : Bool) :
    s.setKey a down =
      s.icWith s.ic.channels (s.ic.stations.modify a fun r => { r with keyDown := down })
        (s.net.isToZm ++ [.talkKey a down]) := rfl

theorem State.enterOffline_eq (s : State) (a : Station) :
    s.enterOffline a =
      s.icWith s.ic.channels (s.ic.stations.set a (s.ic.stations.get a).lost)
        (s.net.isToZm ++ ((if (s.ic.stations.get a).keyDown then [.talkKey a false] else [])
          ++ (s.ic.stations.get a).standing.endSends a)) := by
  have offline : Standing.offline.conv = .none := rfl
  unfold State.enterOffline
  simp only [State.station_eq, State.setStanding_eq, offline]
  by_cases down : (s.ic.stations.get a).keyDown = true
  · simp only [down, if_true, State.setKey_eq, State.icWith, Table.get_modify_self]
    simp [State.modStation, State.modIc, State.standingSet, State.isSends, Table.modify_eq, StationRec.lost,
      Standing.endSends]
  · simp [down, State.modStation, State.modIc, State.standingSet, State.isSends, Table.modify_eq, StationRec.lost,
      State.icWith, Standing.endSends]

section
variable {s : State} (h : Fits s.ic.standings s.ic.lists s.ic.channels.get fun _ => False) {gone : List Station} {a : Station}
include h

/-- Only the owner of the list a station waits on has it on a list. -/
theorem State.unlisted_eq :
    (match (s.ic.stations.get a).standing with
      | .waiting o _ =>
        (s.lost gone).ic.stations.modify o fun r => { r with waiting := r.waiting.filter fun x => decide (x ≠ a) }
      | _ => (s.lost gone).ic.stations) =
      (s.lost gone).ic.stations.update fun _ r => { r with waiting := r.waiting.filter fun x => decide (x ≠ a) } := by
  have kept (b : Station) (apart : ∀ n, (s.ic.stations.get a).standing ≠ .waiting b n) :
      (((s.lost gone).ic.stations.get b).waiting.filter fun x => decide (x ≠ a)) = ((s.lost gone).ic.stations.get b).waiting := by
    refine List.filter_eq_self.mpr fun x mem => decide_eq_true fun e => ?_
    have mem : a ∈ s.ic.lists b := by
      subst e
      by_cases is_gone : b ∈ gone <;> simp_all [State.lost, State.icWith, StationRec.lost, Ic.lists]
    obtain ⟨n, waits⟩ := h.list b a mem
    exact apart n waits
  refine Table.ext_get fun b => ?_
  rw [Table.get_update]
  split
  case h_1 o n waits =>
    rw [Table.get_modify]
    split
    · subst_vars; rfl
    · rw [kept b fun k there => ‹¬b = o› (Standing.waiting.inj (there.symm.trans waits)).1]
  case h_2 none =>
    rw [kept b fun n waits => none b n waits]

/-- Only the channel a station speaks through carries a page of it. -/
theorem State.unpaged_eq (new : a ∉ gone) :
    (match (s.ic.stations.get a).standing with
      | .paging c => (s.lost gone).ic.channels.set c none
      | _ => (s.lost gone).ic.channels) = (s.lost (gone ++ [a])).ic.channels := by
  have others (c : Channel) (apart : (s.ic.stations.get a).standing ≠ .paging c) :
      (s.lost (gone ++ [a])).ic.channels.get c = (s.lost gone).ic.channels.get c := by
    cases used : s.ic.channels.get c with
    | none => simp [State.lost, State.icWith, used]
    | some p =>
      have speaker : p.station ≠ a := fun e => apart (e ▸ h.channel c p used)
      simp [State.lost, State.icWith, used, speaker]
  refine Table.ext_get fun c => ?_
  split
  case h_1 d speaks =>
    rw [Table.get_set]
    split
    case isTrue same =>
      obtain ⟨p, used, rfl⟩ := h.paging a d speaks
      simp [State.lost, State.icWith, same, used]
    case isFalse other => exact (others c fun there => other (Standing.paging.inj (there.symm.trans speaks))).symm
  case h_2 none => exact (others c (none c)).symm

/-- What a station leaves behind before it goes OFFLINE itself. -/
theorem State.leaveConversation_lost (new : a ∉ gone) :
    (s.lost gone).leaveConversation a =
      s.icWith (s.lost (gone ++ [a])).ic.channels
        ((s.lost gone).ic.stations.update fun _ r => { r with waiting := r.waiting.filter fun x => decide (x ≠ a) })
        ((s.lost gone).net.isToZm ++
          match (s.ic.stations.get a).standing with
          | .paging c => pageEndSends c (s.ic.channels.get c)
          | _ => []) := by
  have standing : ((s.lost gone).ic.stations.get a).standing = (s.ic.stations.get a).standing := by
    simp [State.lost, State.icWith, new]
  have pages : (match (s.ic.stations.get a).standing with
      | .paging c => pageEndSends c ((s.lost gone).ic.channels.get c)
      | _ => []) =
      match (s.ic.stations.get a).standing with
      | .paging c => pageEndSends c (s.ic.channels.get c)
      | _ => [] := by
    split
    case h_1 c speaks =>
      obtain ⟨p, used, rfl⟩ := h.paging a c speaks
      simp [State.lost, State.icWith, used, new]
    case h_2 => rfl
  rw [State.leaveConversation_eq, standing, State.unlisted_eq h, State.unpaged_eq h new, pages]
  rfl

/-- One more station goes OFFLINE. -/
theorem State.lost_append (new : a ∉ gone) : ((s.lost gone).leaveConversation a).enterOffline a = s.lost (gone ++ [a]) := by
  have stations : ((s.lost gone).ic.stations.update fun _ r =>
      { r with waiting := r.waiting.filter fun x => decide (x ≠ a) }).set a (s.ic.stations.get a).lost =
      (s.lost (gone ++ [a])).ic.stations := by
    refine Table.ext_get fun b => ?_
    rw [Table.get_set, Table.get_update]
    by_cases self : b = a
    · simp [State.lost, State.icWith, self]
    · by_cases is_gone : b ∈ gone
      · simp [State.lost, State.icWith, self, is_gone, StationRec.lost]
      · simp [State.lost, State.icWith, self, is_gone, List.filter_filter, Bool.and_comm]
  obtain ⟨lost_a, down_a, standing_a⟩ :
      (((s.lost gone).leaveConversation a).ic.stations.get a).lost = (s.ic.stations.get a).lost
      ∧ (((s.lost gone).leaveConversation a).ic.stations.get a).keyDown = (s.ic.stations.get a).keyDown
      ∧ (((s.lost gone).leaveConversation a).ic.stations.get a).standing = (s.ic.stations.get a).standing := by
    rw [State.leaveConversation_lost h new]
    simp [State.lost, new, StationRec.lost]
  rw [State.enterOffline_eq, lost_a, down_a, standing_a, State.leaveConversation_lost h new]
  simp only [State.icWith_icWith, State.icWith_channels, State.icWith_stations, State.icWith_isToZm]
  rw [stations]
  simp [State.lost, State.lossSends, List.append_assoc]

end

/-- What the loss of a station marks: its partner and its callers, but for those that are lost as well (R91). -/
def State.lossMarks (s : State) (leaving : Station → Bool) (a : Station) : List (Station × IdleNotice) :=
  ((s.ic.stations.get a).standing.partnerMark
    ++ (s.ic.stations.get a).waiting.map fun w => (w, IdleNotice.noAnswer)).filter fun m => !leaving m.1

/-- The first phase of R91, station by station. -/
theorem State.foldl_lose {s : State} (h : Fits s.ic.standings s.ic.lists s.ic.channels.get fun _ => False)
    {leaving : Station → Bool} {xs : List Station} (nodup : xs.Nodup) (leave : ∀ x ∈ xs, leaving x = true) :
    xs.foldl (Cascade.lose leaving) ⟨s, []⟩ = ⟨s.lost xs, xs.flatMap (s.lossMarks leaving)⟩ := by
  induction xs using List.reverseRecOn with
  | nil => rw [State.lost_nil]; rfl
  | append_singleton xs x ih =>
    obtain ⟨nodup, -, apart⟩ := List.nodup_append.mp nodup
    have new : x ∉ xs := fun mem => apart x mem x (List.mem_singleton_self x) rfl
    have leave' : ∀ y ∈ xs, leaving y = true := fun y mem => leave y (List.mem_append_left _ mem)
    have marks : ((((s.lost xs).ic.stations.get x).standing.partnerMark
        ++ ((s.lost xs).ic.stations.get x).waiting.map fun w => (w, IdleNotice.noAnswer)).filter fun m => !leaving m.1) =
        s.lossMarks leaving x := by
      have filters : ((s.ic.stations.get x).waiting.filter fun y => !leaving y && decide (y ∉ xs)) =
          (s.ic.stations.get x).waiting.filter fun y => !leaving y := by
        refine List.filter_congr fun y _ => ?_
        by_cases mem : y ∈ xs
        · simp [mem, leave' y mem]
        · simp [mem]
      simp [State.lost, State.lossMarks, new, List.filter_map, Function.comp_def, List.filter_filter, ← filters]
    rw [List.foldl_append, ih nodup leave', List.foldl_cons, List.foldl_nil, Cascade.lose, State.lost_append h new]
    simp only [State.station_eq, marks]
    simp

/-! ## Stations left behind (R91) -/

/-- A station that enters IDLE. -/
def StationRec.idled (r : StationRec) (n : IdleNotice) : StationRec := { r with standing := .idle n }

/-- `s` with the stations of a list IDLE, each with its notice. -/
def State.idled (s : State) (notice : Station → IdleNotice) (l : List Station) : State :=
  s.icWith s.ic.channels (s.ic.stations.update fun a r => if a ∈ l then r.idled (notice a) else r)
    (s.net.isToZm ++ l.flatMap fun a => (s.ic.stations.get a).standing.endSends a)

theorem State.setIdle_eq (s : State) (n : IdleNotice) (a : Station) :
    s.setIdle n a =
      s.icWith s.ic.channels (s.ic.stations.set a ((s.ic.stations.get a).idled n))
        (s.net.isToZm ++ (s.ic.stations.get a).standing.endSends a) :=
  s.setStanding_eq a (.idle n)

/-- The stations of a list enter IDLE in turn. -/
theorem State.foldl_setIdle (s : State) (notice : Station → IdleNotice) {l : List Station} (nodup : l.Nodup) :
    l.foldl (fun t a => t.setIdle (notice a) a) s = s.idled notice l := by
  induction l generalizing s with
  | nil =>
    have stations : (s.ic.stations.update fun a r => if a ∈ [] then r.idled (notice a) else r) = s.ic.stations :=
      Table.update_eq_self _ _ fun a => by simp
    rw [State.idled, stations]
    simp [State.icWith]
  | cons b l ih =>
    obtain ⟨new, nodup⟩ := List.nodup_cons.mp nodup
    have sends (r : StationRec) : (l.flatMap fun a => ((s.ic.stations.set b r).get a).standing.endSends a) =
        l.flatMap fun a => (s.ic.stations.get a).standing.endSends a :=
      List.flatMap_congr fun a mem => by
        rw [Table.get_set_ne _ _ (ne_of_mem_of_not_mem mem new)]
    rw [List.foldl_cons, ih _ nodup, State.setIdle_eq, State.idled, State.idled]
    simp only [State.icWith_icWith, State.icWith_channels, State.icWith_stations, State.icWith_isToZm, sends,
      List.flatMap_cons, List.append_assoc]
    congr 1
    refine Table.ext_get fun a => ?_
    rw [Table.get_update, Table.get_update, Table.get_set]
    by_cases self : a = b
    · simp [self, new]
    · simp [self]

end Sys2Proof.Machine

namespace Sys2Proof.Machine

/-! ## Stations left behind serve their callers (R86, R91) -/

/-- An IDLE station serves the first of its list. -/
def StationRec.serving (r : StationRec) (ring : Nat) : StationRec :=
  match r.waiting with
  | [] => r
  | x :: rest => { r with standing := .ringing x ring, waiting := rest }

/-- The record of station `a` once the stations of `l`, IDLE, have served their lists: one of `l` rings its first caller,
and a caller that is first calls. -/
def State.servedRec (s : State) (l : List Station) (a : Station) (r : StationRec) : StationRec :=
  if a ∈ l then r.serving s.ic.ringTimeout
  else
    match r.standing with
    | .waiting o _ =>
      if o ∈ l ∧ (s.ic.stations.get o).waiting.head? = some a then { r with standing := .calling o } else r
    | _ => r

/-- `s` with the stations of a list, IDLE, each having served its own. -/
def State.allServed (s : State) (l : List Station) : State :=
  s.icWith s.ic.channels (s.ic.stations.update (s.servedRec l)) s.net.isToZm

/-- Each station of the list is IDLE, and those on its own list wait on it. -/
def State.mayServe (s : State) (a : Station) : Prop := s.stationIdle a ∧ s.callersWait a

section
variable {s : State} {a b o : Station} {l : List Station} {r : StationRec} {k : Nat}

theorem State.servedRec_of_mem (mem : a ∈ l) : s.servedRec l a r = r.serving s.ic.ringTimeout := if_pos mem

theorem State.servedRec_of_waiting (other : a ∉ l) (waits : r.standing = .waiting o k) :
    s.servedRec l a r =
      if o ∈ l ∧ (s.ic.stations.get o).waiting.head? = some a then { r with standing := .calling o } else r := by
  rw [State.servedRec, if_neg other, waits]

theorem State.servedRec_of_still (other : a ∉ l) (still : ∀ o k, r.standing ≠ .waiting o k) : s.servedRec l a r = r := by
  rw [State.servedRec, if_neg other]
  split
  case h_1 o k waits => exact absurd waits (still o k)
  case h_2 => rfl

theorem State.servedRec_of_not_first (other : a ∉ l)
    (not_first : ∀ o ∈ l, (s.ic.stations.get o).waiting.head? ≠ some a) : s.servedRec l a r = r := by
  rw [State.servedRec, if_neg other]
  split
  case h_1 => rw [if_neg fun h => not_first _ h.1 h.2]
  case h_2 => rfl

theorem StationRec.serving_still (still : ∀ o k, r.standing ≠ .waiting o k) (o : Station) (k ring : Nat) :
    (r.serving ring).standing ≠ .waiting o k := by
  rw [StationRec.serving]
  split
  · exact still o k
  · exact Standing.noConfusion

theorem State.stationIdle.still (idle : s.stationIdle a) (o : Station) (k : Nat) :
    (s.ic.stations.get a).standing ≠ .waiting o k := fun waits => idle.not_waitsOn ⟨k, waits⟩

theorem State.allServed_get : (s.allServed l).ic.stations.get a = s.servedRec l a (s.ic.stations.get a) :=
  Table.get_update ..

theorem State.allServed_nil (s : State) : s.allServed [] = s := by
  have stations : s.ic.stations.update (s.servedRec []) = s.ic.stations :=
    Table.update_eq_self _ _ fun a => State.servedRec_of_not_first List.not_mem_nil nofun
  rw [State.allServed, stations]
  rfl

theorem State.served_eq_allServed (may : s.mayServe a) : s.served a = s.allServed [a] := by
  obtain ⟨idle, wait⟩ := may
  cases list : (s.ic.stations.get a).waiting with
  | nil =>
    have stations : s.ic.stations.update (s.servedRec [a]) = s.ic.stations := by
      refine Table.update_eq_self _ _ fun b => ?_
      by_cases self : b = a
      · simp [self, State.servedRec_of_mem, StationRec.serving, list]
      · exact State.servedRec_of_not_first (by simpa using self) (by simp [list])
    rw [State.served_of_nil list, State.allServed, stations]
    rfl
  | cons x rest =>
    obtain ⟨k, waits⟩ : s.waitsOn x a := wait x (by rw [list]; exact List.mem_cons_self)
    have caller : x ≠ a := fun e => idle.still a k (e ▸ waits)
    simp only [State.served, list, State.allServed, State.icWith]
    congr 2
    refine Table.ext_get fun b => ?_
    rw [Table.get_update, Table.get_set]
    by_cases first : b = x
    · simp [first, State.servedRec_of_waiting (l := [a]) (by simpa using caller) waits, list]
    · by_cases self : b = a
      · simp [self, caller.symm, State.servedRec_of_mem, StationRec.serving, list]
      · rw [State.servedRec_of_not_first (by simpa using self) (by simpa [list, eq_comm] using first), if_neg first,
          Table.get_set_ne _ _ self]

/-- A station that serves first does not come in the way of the others. -/
theorem State.allServed_cons (new : a ∉ l) (may : s.mayServe a) (idle_l : ∀ b ∈ l, s.stationIdle b) :
    (s.served a).allServed l = s.allServed (a :: l) := by
  have kept (b : Station) (mem : b ∈ l) : s.servedRec [a] b (s.ic.stations.get b) = s.ic.stations.get b :=
    State.servedRec_of_still (fun self => new (List.mem_singleton.mp self ▸ mem)) (idle_l b mem).still
  have stations : (s.ic.stations.update (s.servedRec [a])).update ((s.allServed [a]).servedRec l) =
      s.ic.stations.update (s.servedRec (a :: l)) := by
    refine Table.ext_get fun b => ?_
    rw [Table.get_update, Table.get_update, Table.get_update]
    by_cases self : b = a
    · subst self
      rw [State.servedRec_of_mem List.mem_cons_self, State.servedRec_of_mem List.mem_cons_self,
        State.servedRec_of_still new (StationRec.serving_still may.1.still · · _)]
    · by_cases mem : b ∈ l
      · rw [kept b mem, State.servedRec_of_mem mem, State.servedRec_of_mem (List.mem_cons_of_mem a mem)]
        rfl
      · by_cases waits : ∃ o k, (s.ic.stations.get b).standing = .waiting o k
        · obtain ⟨o, k, waits⟩ := waits
          rw [State.servedRec_of_waiting (by simpa using self) waits,
            State.servedRec_of_waiting (l := a :: l) (by simp [self, mem]) waits]
          by_cases first : o = a ∧ (s.ic.stations.get o).waiting.head? = some b
          · rw [if_pos ⟨List.mem_singleton.mpr first.1, first.2⟩, if_pos ⟨first.1 ▸ List.mem_cons_self, first.2⟩,
              State.servedRec_of_still mem fun _ _ => Standing.noConfusion]
          · have later : o ∈ l ∧ ((s.allServed [a]).ic.stations.get o).waiting.head? = some b ↔
                o ∈ a :: l ∧ (s.ic.stations.get o).waiting.head? = some b := by
              refine ⟨fun ⟨own, head⟩ => ⟨List.mem_cons_of_mem a own, ?_⟩, fun ⟨own, head⟩ => ?_⟩
              · rwa [State.allServed_get, kept o own] at head
              · have own := (List.mem_cons.mp own).resolve_left fun e => first ⟨e, head⟩
                exact ⟨own, by rwa [State.allServed_get, kept o own]⟩
            rw [if_neg fun h => first ⟨List.mem_singleton.mp h.1, h.2⟩, State.servedRec_of_waiting mem waits]
            simp only [later]
        · have still : ∀ o k, (s.ic.stations.get b).standing ≠ .waiting o k := fun o k h => waits ⟨o, k, h⟩
          rw [State.servedRec_of_still (by simpa using self) still, State.servedRec_of_still mem still,
            State.servedRec_of_still (by simp [self, mem]) still]
  rw [State.served_eq_allServed may]
  exact congrArg (fun t => s.icWith s.ic.channels t s.net.isToZm) stations

/-- A station that serves keeps the others as they must be to serve. -/
theorem State.mayServe.served (may : s.mayServe b) (may_a : s.mayServe a) (other : b ≠ a) : (s.served a).mayServe b := by
  obtain ⟨idle, wait⟩ := may
  obtain ⟨idle_a, wait_a⟩ := may_a
  have kept : (s.served a).ic.stations.get b = s.ic.stations.get b := State.served_get other idle.not_waitsOn wait_a
  refine ⟨by rwa [State.stationIdle, kept], wait.mono (by rw [kept]) fun x waits => ?_⟩
  have self : x ≠ a := fun e => idle_a.not_waitsOn (e ▸ waits)
  have elsewhere : ¬s.waitsOn x a := by
    rintro ⟨n, there⟩
    obtain ⟨m, here⟩ := waits
    exact other (Standing.waiting.inj (here.symm.trans there)).1
  rwa [State.waitsOn, State.served_get self elsewhere wait_a]

theorem State.foldl_serve (nodup : l.Nodup) (may : ∀ a ∈ l, s.mayServe a) : l.foldl State.serve s = s.allServed l := by
  induction l generalizing s with
  | nil => exact s.allServed_nil.symm
  | cons a l ih =>
    obtain ⟨new, nodup⟩ := List.nodup_cons.mp nodup
    have may_a := may a List.mem_cons_self
    have may_l : ∀ b ∈ l, s.mayServe b := fun b mem => may b (List.mem_cons_of_mem a mem)
    have may_later : ∀ b ∈ l, (s.served a).mayServe b := fun b mem =>
      (may_l b mem).served may_a (ne_of_mem_of_not_mem mem new)
    rw [List.foldl_cons, State.serve_eq_served may_a.1 may_a.2, ih nodup may_later,
      State.allServed_cons new may_a fun b mem => (may_l b mem).1]

end

end Sys2Proof.Machine

namespace Sys2Proof.Machine

/-! ## Whom the loss of a station marks (R91) -/

/-- The station whose loss ends a standing, and the notice it leaves (R91). -/
def Standing.endedBy : Standing → Option (Station × IdleNotice)
  | .calling x => some (x, .noAnswer)
  | .ringing x _ => some (x, .quiet)
  | .talking x => some (x, .quiet)
  | .waiting o _ => some (o, .noAnswer)
  | _ => none

/-- The notice that is left where a standing ends. -/
def Standing.endNotice (v : Standing) : IdleNotice := (v.endedBy.map Prod.snd).getD .quiet

/-- The stations that hang on a station: its partner in a call, and its callers. -/
def StationRec.hangers (r : StationRec) : List Station := r.standing.partnerMark.map Prod.fst ++ r.waiting

/-- The stations of `gone` leave these behind. -/
def State.leftBy (s : State) (leaving : Station → Bool) (gone : List Station) : List Station :=
  gone.flatMap fun x => (s.ic.stations.get x).hangers.filter fun a => !leaving a

theorem Standing.mem_partnerMark {v : Standing} {m : Station × IdleNotice} :
    m ∈ v.partnerMark ↔
      v = .calling m.1 ∧ m.2 = .quiet ∨ (∃ k, v = .ringing m.1 k) ∧ m.2 = .noAnswer ∨ v = .talking m.1 ∧ m.2 = .quiet := by
  cases v <;> simp [Standing.partnerMark, Prod.ext_iff, eq_comm]

theorem Standing.endedBy_iff {v : Standing} {x : Station} :
    (∃ n, v.endedBy = some (x, n)) ↔
      v = .calling x ∨ (∃ k, v = .ringing x k) ∨ v = .talking x ∨ ∃ k, v = .waiting x k := by
  cases v <;> simp [Standing.endedBy]

section
variable {s : State} (h : Fits s.ic.standings s.ic.lists s.ic.channels.get fun _ => False) {a x : Station}
include h

/-- The loss of a station ends what its partner in a call stands in, which is no list. -/
theorem State.partner_ends {m : Station × IdleNotice} (mem : m ∈ (s.ic.standings x).partnerMark) :
    (s.ic.standings m.1).endedBy = some (x, m.2) ∧ ∀ o k, s.ic.standings m.1 ≠ .waiting o k := by
  obtain ⟨calls, quiet⟩ | ⟨⟨k, rings⟩, late⟩ | ⟨talks, quiet⟩ := Standing.mem_partnerMark.mp mem
  · obtain ⟨k, rings⟩ := h.calling x m.1 calls
    rw [rings, quiet]
    exact ⟨rfl, fun _ _ => Standing.noConfusion⟩
  · rw [h.ringing x m.1 k rings, late]
    exact ⟨rfl, fun _ _ => Standing.noConfusion⟩
  · rw [(h.talking x m.1 talks).2, quiet]
    exact ⟨rfl, fun _ _ => Standing.noConfusion⟩

/-- A station hangs on the one whose loss ends its standing. -/
theorem State.mem_hangers : a ∈ (s.ic.stations.get x).hangers ↔ ∃ n, (s.ic.standings a).endedBy = some (x, n) := by
  rw [StationRec.hangers, List.mem_append]
  constructor
  · rintro (partner | caller)
    · obtain ⟨m, mem, rfl⟩ := List.mem_map.mp partner
      exact ⟨m.2, (State.partner_ends h mem).1⟩
    · obtain ⟨k, waits⟩ := h.list x a caller
      exact ⟨.noAnswer, waits ▸ rfl⟩
  · intro ends
    have marks {n : IdleNotice} (mem : (a, n) ∈ (s.ic.standings x).partnerMark) :
        a ∈ (s.ic.stations.get x).standing.partnerMark.map Prod.fst := List.mem_map_of_mem (f := Prod.fst) mem
    rcases Standing.endedBy_iff.mp ends with calls | ⟨k, rings⟩ | talks | ⟨k, waits⟩
    · exact .inl (marks (n := .noAnswer) (Standing.mem_partnerMark.mpr (.inr (.inl ⟨h.calling a x calls, rfl⟩))))
    · exact .inl (marks (n := .quiet) (Standing.mem_partnerMark.mpr (.inl ⟨h.ringing a x k rings, rfl⟩)))
    · exact .inl (marks (n := .quiet) (Standing.mem_partnerMark.mpr (.inr (.inr ⟨(h.talking a x talks).2, rfl⟩))))
    · exact .inr (h.waiting a x k waits).2

theorem State.hangers_nodup : (s.ic.stations.get x).hangers.Nodup := by
  refine List.nodup_append.mpr ⟨?_, h.nodup x, ?_⟩
  · cases (s.ic.stations.get x).standing <;> simp [Standing.partnerMark]
  · rintro a partner _ mem rfl
    obtain ⟨m, mark, rfl⟩ := List.mem_map.mp partner
    obtain ⟨k, waits⟩ := h.list x m.1 mem
    exact (State.partner_ends h mark).2 x k waits

/-- The mark a station gives is the notice its standing ends in. -/
theorem State.lossMarks_eq (leaving : Station → Bool) :
    s.lossMarks leaving x =
      ((s.ic.stations.get x).hangers.filter fun a => !leaving a).map fun a => (a, (s.ic.standings a).endNotice) := by
  have partner : (s.ic.standings x).partnerMark =
      ((s.ic.standings x).partnerMark.map Prod.fst).map fun a => (a, (s.ic.standings a).endNotice) := by
    rw [List.map_map]
    refine ((List.map_congr_left fun m mem => ?_).trans (List.map_id _)).symm
    simp [Standing.endNotice, (State.partner_ends h mem).1]
  have callers : ((s.ic.lists x).map fun w => (w, IdleNotice.noAnswer)) =
      (s.ic.lists x).map fun a => (a, (s.ic.standings a).endNotice) :=
    List.map_congr_left fun w mem => by
      obtain ⟨k, waits⟩ := h.list x w mem
      rw [waits]
      rfl
  have all : (s.ic.standings x).partnerMark ++ (s.ic.lists x).map (fun w => (w, IdleNotice.noAnswer)) =
      (s.ic.stations.get x).hangers.map fun a => (a, (s.ic.standings a).endNotice) := by
    rw [callers, StationRec.hangers, List.map_append, ← Ic.standings_eq, ← Ic.lists_eq, ← partner]
  rw [State.lossMarks, ← Ic.standings_eq, ← Ic.lists_eq, all, List.filter_map]
  rfl

variable {leaving : Station → Bool} {gone : List Station}

theorem State.mem_leftBy :
    a ∈ s.leftBy leaving gone ↔ leaving a = false ∧ ∃ x n, x ∈ gone ∧ (s.ic.standings a).endedBy = some (x, n) := by
  simp only [State.leftBy, List.mem_flatMap, List.mem_filter, State.mem_hangers h, Bool.not_eq_true']
  grind

theorem State.leftBy_nodup (nodup : gone.Nodup) : (s.leftBy leaving gone).Nodup := by
  refine List.nodup_flatMap.mpr ⟨fun x _ => (State.hangers_nodup h).filter _, nodup.imp ?_⟩
  intro x y other a mem_x mem_y
  obtain ⟨n, by_x⟩ := (State.mem_hangers h).mp (List.mem_of_mem_filter mem_x)
  obtain ⟨m, by_y⟩ := (State.mem_hangers h).mp (List.mem_of_mem_filter mem_y)
  exact other (congrArg Prod.fst (Option.some.inj (by_x.symm.trans by_y)))

theorem State.lossMarks_flatMap :
    gone.flatMap (s.lossMarks leaving) =
      (s.leftBy leaving gone).map fun a => (a, (s.ic.standings a).endNotice) := by
  simp only [State.leftBy, List.map_flatMap, ← State.lossMarks_eq h]

end

end Sys2Proof.Machine

namespace Sys2Proof.Machine

/-! ## The stations left behind, IDLE, before they serve (R91) -/

/-- The structure after a loss: those lost OFFLINE and on no list, those they left behind IDLE, with callers to serve. -/
theorem Fits.lose {v : Station → Standing} {l : Station → List Station} {pages : Channel → Option PageRec}
    (h : Fits v l pages fun _ => False) {gone left : List Station}
    (left_iff : ∀ a, a ∈ left ↔ a ∉ gone ∧ ∃ x n, x ∈ gone ∧ (v a).endedBy = some (x, n)) (notice : Station → IdleNotice) :
    Fits (fun a => if a ∈ left then .idle (notice a) else if a ∈ gone then .offline else v a)
      (fun a => if a ∈ gone then [] else (l a).filter fun x => decide (x ∉ gone))
      (fun c => (pages c).bind fun p => if p.station ∈ gone then none else some p) (· ∈ left) := by
  replace left_iff (a : Station) : a ∈ left ↔ a ∉ gone ∧
      ∃ x, x ∈ gone ∧ (v a = .calling x ∨ (∃ k, v a = .ringing x k) ∨ v a = .talking x ∨ ∃ k, v a = .waiting x k) := by
    rw [left_iff]
    simp only [← Standing.endedBy_iff, exists_and_left]
  have ⟨offline, idle, calling, ringing, talking, waiting, paging, short, nodup, list, channel⟩ := h
  clear h
  constructor
  case offline => grind
  case idle => grind
  case calling => grind
  case ringing => grind
  case talking => grind
  case waiting => grind
  case paging => grind
  case short => grind [List.length_filter_le]
  case nodup => grind
  case list => grind
  case channel =>
    intro c p used
    obtain ⟨q, used, kept⟩ := Option.bind_eq_some_iff.mp used
    have speaks := channel c q used
    have stays : q.station ∉ gone ∧ q = p := by
      split at kept
      · nomatch kept
      · exact ⟨‹_›, Option.some.inj kept⟩
    obtain ⟨stays, rfl⟩ := stays
    have unmarked : q.station ∉ left := fun mem => by
      obtain ⟨-, x, -, calls | ⟨k, rings⟩ | talks | ⟨k, waits⟩⟩ := (left_iff _).mp mem <;> simp_all
    simp [stays, unmarked, speaks]

/-! ## R91 as a whole -/

/-- `s` with the stations of a list gone OFFLINE and those they left behind IDLE, their lists not yet served. -/
def State.lostAndIdled (s : State) (gone left : List Station) : State :=
  (s.lost gone).idled (fun a => (s.ic.standings a).endNotice) left

section
variable {s : State} (h : Fits s.ic.standings s.ic.lists s.ic.channels.get fun _ => False) {gone left : List Station}
  (left_iff : ∀ a, a ∈ left ↔ a ∉ gone ∧ ∃ x n, x ∈ gone ∧ (s.ic.standings a).endedBy = some (x, n))
include h left_iff

theorem State.lostAndIdled_fits :
    Fits (s.lostAndIdled gone left).ic.standings (s.lostAndIdled gone left).ic.lists
      (s.lostAndIdled gone left).ic.channels.get (· ∈ left) := by
  have standings : (s.lostAndIdled gone left).ic.standings = fun a =>
      if a ∈ left then .idle (s.ic.standings a).endNotice else if a ∈ gone then .offline else s.ic.standings a := by
    funext a
    simp only [State.lostAndIdled, State.idled, State.lost, Ic.standings, State.icWith_stations, Table.get_update]
    split
    · rfl
    · split <;> rfl
  have lists : (s.lostAndIdled gone left).ic.lists = fun a =>
      if a ∈ gone then [] else (s.ic.lists a).filter fun x => decide (x ∉ gone) := by
    funext a
    simp only [State.lostAndIdled, State.idled, State.lost, Ic.lists, State.icWith_stations, Table.get_update]
    by_cases idled : a ∈ left <;> by_cases lost : a ∈ gone <;> simp [idled, lost, StationRec.idled, StationRec.lost]
  have channels : (s.lostAndIdled gone left).ic.channels.get = fun c =>
      (s.ic.channels.get c).bind fun p => if p.station ∈ gone then none else some p := by
    funext c
    exact Table.get_update ..
  rw [standings, lists, channels]
  exact h.lose left_iff _

theorem State.lostAndIdled_mayServe {a : Station} (mem : a ∈ left) : (s.lostAndIdled gone left).mayServe a := by
  refine ⟨⟨(s.ic.standings a).endNotice, ?_⟩, (State.lostAndIdled_fits h left_iff).list a⟩
  simp [State.lostAndIdled, State.idled, mem, StationRec.idled]

end

/-- Stations of a list go OFFLINE in one event. -/
theorem State.loseStations_eq {s : State} (h : Fits s.ic.standings s.ic.lists s.ic.channels.get fun _ => False)
    {gone : List Station} (nodup : gone.Nodup) :
    s.loseStations gone = (s.lostAndIdled gone (s.leftBy (fun x => gone.contains x) gone)).allServed
      (s.leftBy (fun x => gone.contains x) gone) := by
  have left_iff (a : Station) : a ∈ s.leftBy (fun x => gone.contains x) gone ↔
      a ∉ gone ∧ ∃ x n, x ∈ gone ∧ (s.ic.standings a).endedBy = some (x, n) := by
    simp [State.mem_leftBy h]
  rw [State.loseStations, State.foldl_lose h nodup fun x mem => List.contains_iff_mem.mpr mem, Cascade.finish]
  simp only [State.lossMarks_flatMap h, List.foldl_map]
  rw [State.foldl_setIdle _ _ (State.leftBy_nodup h nodup)]
  exact State.foldl_serve (State.leftBy_nodup h nodup) fun a mem => State.lostAndIdled_mayServe h left_iff mem

end Sys2Proof.Machine

namespace Sys2Proof.Machine

/-! ## What a loss makes of each station (R91) -/

/-- The notice in which the loss of `gone` leaves a station, where it ends what the station stands in. -/
def State.endsIn (s : State) (gone : List Station) (a : Station) : Option IdleNotice :=
  (s.ic.standings a).endedBy.bind fun m => if m.1 ∈ gone then some m.2 else none

/-- Those who still wait on a station after the loss of `gone`. -/
def State.waitStill (s : State) (gone : List Station) (a : Station) : List Station :=
  (s.ic.lists a).filter fun x => decide (x ∉ gone)

theorem State.endsIn_eq_some {s : State} {gone : List Station} {a : Station} {n : IdleNotice}
    (ends : s.endsIn gone a = some n) :
    (∃ x ∈ gone, (s.ic.standings a).endedBy = some (x, n)) ∧ (s.ic.standings a).endNotice = n := by
  obtain ⟨⟨x, m⟩, by_x, lost⟩ := Option.bind_eq_some_iff.mp ends
  obtain ⟨mem, same⟩ := Option.ite_none_right_eq_some.mp lost
  obtain rfl : m = n := Option.some.inj same
  exact ⟨⟨x, mem, by_x⟩, by rw [Standing.endNotice, by_x]; rfl⟩

section
variable {s : State} {gone left : List Station} {a : Station}
  (left_iff : ∀ a, a ∈ left ↔ a ∉ gone ∧ ∃ x n, x ∈ gone ∧ (s.ic.standings a).endedBy = some (x, n))
include left_iff

theorem State.mem_left_iff : a ∈ left ↔ a ∉ gone ∧ (s.endsIn gone a).isSome := by
  rw [left_iff, State.endsIn]
  cases (s.ic.standings a).endedBy with
  | none => simp
  | some m => simp [Prod.ext_iff]

theorem State.lostAndIdled_get :
    (s.lostAndIdled gone left).ic.stations.get a =
      if a ∈ gone then (s.ic.stations.get a).lost
      else
        { s.ic.stations.get a with
          waiting := s.waitStill gone a
          standing := if a ∈ left then .idle (s.ic.standings a).endNotice else s.ic.standings a } := by
  have apart : a ∈ left → a ∉ gone := fun mem => ((left_iff a).mp mem).1
  simp only [State.lostAndIdled, State.idled, State.lost, State.icWith_stations, Table.get_update]
  by_cases gone_a : a ∈ gone
  · have other : a ∉ left := fun mem => apart mem gone_a
    simp [gone_a, other]
  · by_cases mem : a ∈ left <;> simp [gone_a, mem, StationRec.idled, State.waitStill, Ic.standings, Ic.lists]

/-- What the loss of `gone` makes of station `a`. -/
theorem State.allServed_lostAndIdled_get :
    ((s.lostAndIdled gone left).allServed left).ic.stations.get a =
      if a ∈ gone then (s.ic.stations.get a).lost
      else
        match s.endsIn gone a, s.waitStill gone a with
        | some n, [] => { s.ic.stations.get a with standing := .idle n, waiting := [] }
        | some _, x :: rest => { s.ic.stations.get a with standing := .ringing x s.ic.ringTimeout, waiting := rest }
        | none, l =>
          { s.ic.stations.get a with
            waiting := l
            standing :=
              match s.ic.standings a with
              | .waiting o k =>
                if (s.endsIn gone o).isSome = true ∧ (s.waitStill gone o).head? = some a then .calling o else .waiting o k
              | v => v } := by
  rw [State.allServed_get]
  by_cases gone_a : a ∈ gone
  · rw [State.servedRec_of_still, State.lostAndIdled_get left_iff, if_pos gone_a, if_pos gone_a]
    · exact fun mem => ((left_iff a).mp mem).1 gone_a
    · rw [State.lostAndIdled_get left_iff, if_pos gone_a]
      exact fun _ _ => Standing.noConfusion
  rw [if_neg gone_a]
  cases ends : s.endsIn gone a with
  | some n =>
    have mem : a ∈ left := (State.mem_left_iff left_iff).mpr ⟨gone_a, by rw [ends]; rfl⟩
    rw [State.servedRec_of_mem mem, State.lostAndIdled_get left_iff, if_neg gone_a, if_pos mem,
      (State.endsIn_eq_some ends).2, StationRec.serving]
    cases s.waitStill gone a <;> rfl
  | none =>
    have other : a ∉ left := fun mem => by simpa [ends] using ((State.mem_left_iff left_iff).mp mem).2
    have kept : (s.lostAndIdled gone left).ic.stations.get a =
        { s.ic.stations.get a with waiting := s.waitStill gone a, standing := s.ic.standings a } := by
      rw [State.lostAndIdled_get left_iff, if_neg gone_a, if_neg other]
    rw [kept]
    cases stands : s.ic.standings a with
    | waiting o k =>
      rw [State.servedRec_of_waiting other rfl]
      have owner : o ∉ gone := fun mem => by
        simp [State.endsIn, stands, Standing.endedBy, mem] at ends
      have first : (o ∈ left ∧ ((s.lostAndIdled gone left).ic.stations.get o).waiting.head? = some a) ↔
          (s.endsIn gone o).isSome = true ∧ (s.waitStill gone o).head? = some a := by
        rw [State.mem_left_iff left_iff, State.lostAndIdled_get left_iff, if_neg owner]
        simp [owner]
      simp only [first]
      split <;> rfl
    | _ => exact State.servedRec_of_still other fun _ _ => Standing.noConfusion

end

/-! ## Stations that come online (R78) -/

theorem State.foldl_comeOnline (s : State) (l : List Station) :
    l.foldl State.comeOnline s =
      s.icWith s.ic.channels (s.ic.stations.update fun a r => if a ∈ l then r.comeOnline else r) s.net.isToZm := by
  induction l generalizing s with
  | nil =>
    have stations : (s.ic.stations.update fun a r => if a ∈ [] then r.comeOnline else r) = s.ic.stations :=
      Table.update_eq_self _ _ fun a => if_neg List.not_mem_nil
    rw [stations]
    rfl
  | cons b l ih =>
    rw [List.foldl_cons, ih]
    have stations : ((s.comeOnline b).ic.stations.update fun a r => if a ∈ l then r.comeOnline else r) =
        s.ic.stations.update fun a r => if a ∈ b :: l then r.comeOnline else r := by
      refine Table.ext_get fun a => ?_
      simp only [State.comeOnline, State.modStation, State.modIc, Table.get_update, Table.get_modify]
      by_cases self : a = b
      · subst self
        simp [StationRec.comeOnline]
      · simp [self]
    rw [stations]
    rfl

/-! ## What ZM is told (R92) -/

theorem flatMap_filter_eq {α β : Type} (l : List α) (p : α → Bool) (f : α → List β) :
    (l.filter p).flatMap f = l.flatMap fun a => if p a then f a else [] := by
  induction l with
  | nil => rfl
  | cons a l ih => cases h : p a <;> simp [h, ih]

theorem Standing.endSends_eq (v : Standing) (a : Station) :
    v.endSends a =
      match v with
      | .talking _ | .group _ => [.standing a .none]
      | _ => [] := by
  cases v <;> rfl

/-- Of those left behind, ZM is told of the partner of a station that was TALKING alone. -/
theorem State.leftBy_sends {s : State} (h : Fits s.ic.standings s.ic.lists s.ic.channels.get fun _ => False)
    (leaving : Station → Bool) (x : Station) :
    (((s.ic.stations.get x).hangers.filter fun a => !leaving a).flatMap fun a => (s.ic.standings a).endSends a) =
      match s.ic.standings x with
      | .talking p => if leaving p then [] else [.standing p .none]
      | _ => [] := by
  have callers : (((s.ic.lists x).filter fun a => !leaving a).flatMap fun a => (s.ic.standings a).endSends a) = [] :=
    List.flatMap_eq_nil_iff.mpr fun w mem => by
      obtain ⟨k, waits⟩ := h.list x w (List.mem_of_mem_filter mem)
      rw [waits]
      rfl
  rw [StationRec.hangers, List.filter_append, List.flatMap_append, ← Ic.lists_eq, callers, List.append_nil, ← Ic.standings_eq]
  cases stands : s.ic.standings x with
  | calling p =>
    obtain ⟨k, rings⟩ := h.calling x p stands
    cases lost : leaving p <;> simp [Standing.partnerMark, lost, rings, Standing.endSends_eq]
  | ringing p k => cases lost : leaving p <;> simp [Standing.partnerMark, lost, h.ringing x p k stands, Standing.endSends_eq]
  | talking p => cases lost : leaving p <;> simp [Standing.partnerMark, lost, (h.talking x p stands).2, Standing.endSends_eq]
  | _ => rfl

end Sys2Proof.Machine

namespace Sys2Proof.Machine

/-! ## The condition of a station port (R77, R78, R91, R109) -/

/-- The stations of a port that are online and that its new condition no longer reaches. -/
def State.goesOffline (s : State) (p : StationPort) (port : PortCopy) : List Station :=
  (StationPort.stations p).filter fun st => (s.station st).standing.online && !port.reaches st

/-- The stations of a port that are OFFLINE and that its new condition reaches. -/
def State.comesOnline (s : State) (p : StationPort) (port : PortCopy) : List Station :=
  (StationPort.stations p).filter fun st => !(s.station st).standing.online && port.reaches st

theorem stationPort_ix (st : Station) (p : StationPort) : (stationPort st).ix = p.ix ↔ st.val / 32 = p.ix.val := by
  have range := st.isLt
  rw [stationPort]
  cases p <;> split <;> simp [StationPort.ix] <;> omega

section
variable {s : State} {p : StationPort} {port : PortCopy} {a : Station}

theorem State.goesOffline_eq :
    s.goesOffline p port = (List.finRange 64).filter fun st =>
      decide ((stationPort st).ix = p.ix) && ((s.ic.standings st).online && !port.reaches st) := by
  simp only [State.goesOffline, StationPort.stations, List.filter_filter, State.station_eq, Ic.standings_eq, Bool.and_comm]

theorem State.mem_goesOffline :
    a ∈ s.goesOffline p port ↔ a.val / 32 = p.ix.val ∧ s.ic.standings a ≠ .offline ∧ port.reaches a = false := by
  simp [State.goesOffline_eq, stationPort_ix, Standing.online_iff]

theorem State.mem_comesOnline :
    a ∈ s.comesOnline p port ↔ a.val / 32 = p.ix.val ∧ s.ic.standings a = .offline ∧ port.reaches a = true := by
  have offline : (s.ic.stations.get a).standing.online = false ↔ s.ic.standings a = .offline := by
    rw [← Bool.not_eq_true, Standing.online_iff, not_not, Ic.standings_eq]
  simp [State.comesOnline, StationPort.stations, stationPort_ix, offline, and_comm]

theorem State.goesOffline_nodup : (s.goesOffline p port).Nodup := by
  rw [State.goesOffline_eq]
  exact (List.nodup_finRange 64).filter _

end

/-- Those that the loss of `gone` leaves behind, in the order in which they are marked. -/
def State.leftBehind (s : State) (gone : List Station) : List Station := s.leftBy (fun x => gone.contains x) gone

/-- What ZM is sent of the partner that a station lost leaves behind. -/
def State.partnerSends (s : State) (gone : List Station) (x : Station) : List ZmMsg :=
  match s.ic.standings x with
  | .talking p => if p ∈ gone then [] else [.standing p .none]
  | _ => []

section
variable {s : State} (h : Fits s.ic.standings s.ic.lists s.ic.channels.get fun _ => False) {gone : List Station}
include h

theorem State.mem_leftBehind (a : Station) :
    a ∈ s.leftBehind gone ↔ a ∉ gone ∧ ∃ x n, x ∈ gone ∧ (s.ic.standings a).endedBy = some (x, n) := by
  simp [State.leftBehind, State.mem_leftBy h]

theorem State.leftBehind_sends :
    ((s.leftBehind gone).flatMap fun a => ((s.lost gone).ic.stations.get a).standing.endSends a) =
      gone.flatMap (s.partnerSends gone) := by
  have stays : ((s.leftBehind gone).flatMap fun a => ((s.lost gone).ic.stations.get a).standing.endSends a) =
      (s.leftBehind gone).flatMap fun a => (s.ic.standings a).endSends a :=
    List.flatMap_congr fun a mem => by
      simp [State.lost, ((State.mem_leftBehind h a).mp mem).1, Ic.standings]
  rw [stays, State.leftBehind, State.leftBy, List.flatMap_assoc]
  refine List.flatMap_congr fun x _ => ?_
  rw [State.leftBy_sends h, State.partnerSends]
  cases s.ic.standings x <;> simp only [List.contains_iff_mem]

/-- What the loss of stations in one event leaves. -/
theorem State.loseStations_icWith (nodup : gone.Nodup) :
    s.loseStations gone =
      s.icWith (s.ic.channels.update fun _ x => x.bind fun page => if page.station ∈ gone then none else some page)
        ((s.lostAndIdled gone (s.leftBehind gone)).allServed (s.leftBehind gone)).ic.stations
        (s.net.isToZm ++ (gone.flatMap s.lossSends ++ gone.flatMap (s.partnerSends gone))) := by
  have sends : (s.lostAndIdled gone (s.leftBehind gone)).net.isToZm =
      s.net.isToZm ++ (gone.flatMap s.lossSends ++ gone.flatMap (s.partnerSends gone)) := by
    rw [← State.leftBehind_sends h, ← List.append_assoc]
    rfl
  rw [State.loseStations_eq h nodup, ← sends]
  rfl

end

/-- IS's copy of a port's condition. -/
def State.setPort (s : State) (p : StationPort) (port : PortCopy) : State :=
  s.modIc fun c => { c with ports := c.ports.set p.ix port }

theorem State.takeCondition_eq {s : State} {p : StationPort} {pass : Bool} {count : Nat} :
    s.takeCondition p pass count =
      (s.comesOnline p ⟨pass, count⟩).foldl State.comeOnline
        ((s.setPort p ⟨pass, count⟩).loseStations (s.goesOffline p ⟨pass, count⟩)) := rfl

/-- The record of station `a` after `gone` are lost and `come` come online. -/
def State.conditionRec (s : State) (gone come : List Station) (a : Station) : StationRec :=
  if a ∈ come then (s.ic.stations.get a).comeOnline
  else if a ∈ gone then (s.ic.stations.get a).lost
  else
    match s.endsIn gone a, s.waitStill gone a with
    | some n, [] => { s.ic.stations.get a with standing := .idle n, waiting := [] }
    | some _, x :: rest => { s.ic.stations.get a with standing := .ringing x s.ic.ringTimeout, waiting := rest }
    | none, l =>
      { s.ic.stations.get a with
        waiting := l
        standing :=
          match s.ic.standings a with
          | .waiting o k =>
            if (s.endsIn gone o).isSome = true ∧ (s.waitStill gone o).head? = some a then .calling o else .waiting o k
          | v => v }

/-- IS after a port's condition. -/
theorem State.takeCondition_icWith {s : State} (h : Fits s.ic.standings s.ic.lists s.ic.channels.get fun _ => False)
    {p : StationPort} {pass : Bool} {count : Nat} {gone : List Station} (gone_eq : gone = s.goesOffline p ⟨pass, count⟩) :
    s.takeCondition p pass count =
      (s.setPort p ⟨pass, count⟩).icWith
        (s.ic.channels.update fun _ x => x.bind fun page => if page.station ∈ gone then none else some page)
        (Table.build (s.conditionRec gone (s.comesOnline p ⟨pass, count⟩)))
        (s.net.isToZm ++ (gone.flatMap s.lossSends ++ gone.flatMap (s.partnerSends gone))) := by
  let t := s.setPort p ⟨pass, count⟩
  have fits : Fits t.ic.standings t.ic.lists t.ic.channels.get fun _ => False := h
  have nodup : gone.Nodup := gone_eq ▸ State.goesOffline_nodup
  have stations : (((t.lostAndIdled gone (t.leftBehind gone)).allServed (t.leftBehind gone)).ic.stations.update fun a r =>
      if a ∈ s.comesOnline p ⟨pass, count⟩ then r.comeOnline else r) =
      Table.build (s.conditionRec gone (s.comesOnline p ⟨pass, count⟩)) := by
    refine Table.ext_get fun a => ?_
    rw [Table.get_update, Table.get_build, State.allServed_lostAndIdled_get (State.mem_leftBehind fits), State.conditionRec]
    split
    case isTrue =>
      split
      · rfl
      · split <;> rfl
    case isFalse => rfl
  rw [State.takeCondition_eq, ← gone_eq, State.loseStations_icWith fits nodup, State.foldl_comeOnline]
  exact congrArg (fun table => t.icWith _ table _) stations

/-- Settles O48. R91 in one event: those lost go OFFLINE, those they leave behind are IDLE with the notice their own standing
gives, and each serves its list; then those the port reaches come online. -/
theorem portConditionBringsStationsOnlineAndOffline : Obligations.PortConditionBringsStationsOnlineAndOffline := by
  intro s p pass count q reached old after come gone ends waits sound free head hreached hold hcome hgone hwaits hends hafter
  obtain rfl : s.ic.stations.get = old := (funext hold).symm
  have reaches (st : Station) : (⟨pass, count⟩ : PortCopy).reaches st = reached st := (hreached st).symm
  let r := s.tookStation p
  have mem_gone (a : Station) : a ∈ r.goesOffline p ⟨pass, count⟩ ↔ gone a = true := by
    rw [State.mem_goesOffline, hgone, reaches]
    rfl
  have mem_come (a : Station) : a ∈ r.comesOnline p ⟨pass, count⟩ ↔ come a = true := by
    rw [State.mem_comesOnline, hcome, reaches]
    rfl
  have gone_eq : (List.finRange 64).filter gone = r.goesOffline p ⟨pass, count⟩ := by
    rw [State.goesOffline_eq]
    refine List.filter_congr fun a _ => ?_
    rw [Bool.eq_iff_iff, ← mem_gone, State.goesOffline_eq, List.mem_filter]
    exact and_iff_right (List.mem_finRange a)
  have acts := State.takeCondition_icWith (s := r) (Ic.fits_of_sound sound) gone_eq
  have stations : Table.build (r.conditionRec ((List.finRange 64).filter gone) (r.comesOnline p ⟨pass, count⟩)) =
      Table.build after := by
    refine Table.ext_get fun a => ?_
    have ends_eq (b : Station) : r.endsIn ((List.finRange 64).filter gone) b = ends b := by
      rw [hends, State.endsIn, show r.ic.standings b = (s.ic.stations.get b).standing from rfl]
      cases (s.ic.stations.get b).standing <;> simp [Standing.endedBy, List.mem_filter]
    have waits_eq (b : Station) : r.waitStill ((List.finRange 64).filter gone) b = waits b := by
      rw [hwaits, State.waitStill]
      exact List.filter_congr fun x _ => by simp [List.mem_filter]
    rw [Table.get_build, Table.get_build, hafter, State.conditionRec, ends_eq, waits_eq]
    simp only [ends_eq, waits_eq, mem_come, List.mem_filter, List.mem_finRange, true_and]
    rfl
  have run : exec (.portCondition p) s = execPortCondition p s := rfl
  rw [run, execPortCondition, head]
  refine event_settles (Ic.freeToAct_of_none free) (acts.trans ?_)
  rw [stations]
  simp only [r, State.icWith, State.setPort, State.modIc, State.tookStation_of_head head]
  congr 2
  case e_ic.e_channels => simp [List.mem_filter]
  case e_net.e_isToZm =>
    rw [List.append_assoc, flatMap_filter_eq, flatMap_filter_eq]
    refine congrArg _ (congrArg₂ _ (List.flatMap_congr fun a _ => ?_) (List.flatMap_congr fun a _ => ?_))
    · split
      · rw [State.lossSends, Standing.endSends_eq]
        rfl
      · rfl
    · simp only [State.partnerSends, Ic.standings, List.mem_filter, List.mem_finRange, true_and]
      cases (s.ic.stations.get a).standing with
      | talking x => cases gone a <;> cases also : gone x <;> simp [also]
      | _ => exact ite_self []

end Sys2Proof.Machine

namespace Sys2Proof.Machine

/-! ## What the other units do leaves IS's record (R12): one rule per operation -/

section
variable (s : State)

/-- What is done in turn to the members of a list leaves IS's record if each step does. -/
theorem foldl_ic {ι : Type} (f : State → ι → State) (keep : ∀ t i, (f t i).ic = t.ic) (l : List ι) :
    (l.foldl f s).ic = s.ic :=
  foldl_keeps f (fun t => t.ic = s.ic) (fun t i same => (keep t i).trans same) l s rfl

/-! ### XU: completions, the pass, the area -/

@[simp] theorem State.handOver_ic (k : SlotIx) (c : Completion) : (s.handOver k c).ic = s.ic := by
  simp only [State.handOver]
  split <;> rfl

@[simp] theorem State.handOver?_ic (k : Option SlotIx) (c : Completion) : (s.handOver? k c).ic = s.ic := by
  cases k with
  | none => rfl
  | some i => exact s.handOver_ic i c

@[simp] theorem State.refuse_ic (k : SlotIx) (c : RefusalCode) (d : Nat) : (s.refuse k c d).ic = s.ic := s.handOver_ic ..

@[simp] theorem State.perform_ic (k : SlotIx) (r : Results) : (s.perform k r).ic = s.ic := s.handOver_ic ..

@[simp] theorem State.passOn_ic (k : SlotIx) : (s.passOn k).ic = s.ic := (passedOn_passOn s k).same.2.2.2.1

@[simp] theorem State.requestPass_ic : s.requestPass.ic = s.ic := (requestPass_frame s).1.2.2.2.1

@[simp] theorem State.dealtWith_ic (k : SlotIx) : (s.dealtWith k).ic = s.ic := by
  simp only [State.dealtWith]
  split
  · exact State.passOn_ic ..
  · rfl

@[simp] theorem State.attach_ic : s.attach.ic = s.ic := by
  simp only [State.attach]
  split <;> rfl

@[simp] theorem State.detach_ic : s.detach.ic = s.ic := by
  simp only [State.detach]
  split <;> rfl

@[simp] theorem State.headerRead_ic (r : BusRead 256) : (s.headerRead r).ic = s.ic := by
  cases r with
  | busError => rfl
  | data b =>
    rw [State.headerRead]
    split <;> rfl

@[simp] theorem State.scanExpiry_ic : s.scanExpiry.ic = s.ic := State.requestPass_ic _

@[simp] theorem State.leaveArea_ic : s.leaveArea.ic = s.ic := rfl

@[simp] theorem State.scanTick_ic : s.scanTick.ic = s.ic := (scanTick_frame s).1.2.2.2.1

@[simp] theorem State.meterExpiry_ic : s.meterExpiry.ic = s.ic := by
  simp only [State.meterExpiry]
  split <;> rfl

@[simp] theorem State.meterTick_ic : s.meterTick.ic = s.ic := by
  simp only [State.meterTick]
  split
  · rfl
  · split
    · exact State.meterExpiry_ic _
    · rfl

@[simp] theorem State.slotRead_ic (k : SlotIx) (b : Table 64 Byte) : (s.slotRead k b).ic = s.ic := by
  simp only [State.slotRead, State.takeSlot]
  split
  · split
    · simp
    · split <;> simp
  · simp

@[simp] theorem State.control_ic (v : BitVec 32) : (s.control v).ic = s.ic := by
  simp only [State.control]
  split <;> split <;> simp

/-! ### ZM -/

@[simp] theorem State.takeClaim_ic (u : Block) (c : Claim) (k : Candidates) (m : Manner) (st : Option Stage) :
    (s.takeClaim u c k m st).ic = s.ic := by
  cases st <;> rfl

@[simp] theorem State.takeRelease_ic (u : Block) (c : Claim) (k : ZoneMask) : (s.takeRelease u c k).ic = s.ic := by
  simp only [State.takeRelease]
  split <;> rfl

@[simp] theorem State.tookAmp_ic (p : AmpPort) : (s.tookAmp p).ic = s.ic := rfl

@[simp] theorem takeZoneSet_ic (k : SlotIx) (p : ZoneSetParams) : (takeZoneSet k p s).ic = s.ic := by
  simp only [takeZoneSet]
  split <;> simp

@[simp] theorem takeZoneFill_ic (k : SlotIx) (p : ZoneFillParams) : (takeZoneFill k p s).ic = s.ic := by
  simp only [takeZoneFill]
  split
  · simp
  · split <;> simp

@[simp] theorem takeZonesetDefine_ic (k : SlotIx) (p : ZonesetDefineParams) : (takeZonesetDefine k p s).ic = s.ic := by
  simp only [takeZonesetDefine]
  split <;> simp

@[simp] theorem takeRouteSet_ic (k : SlotIx) (p : RouteSetParams) : (takeRouteSet k p s).ic = s.ic := by
  simp only [takeRouteSet]
  split <;> simp

@[simp] theorem takeSetMode_ic (k : SlotIx) (p : SetModeParams) : (takeSetMode k p s).ic = s.ic := by
  simp only [takeSetMode]
  split
  · simp
  · split
    · simp
    · split <;> simp [State.changeMode]

/-! ### MAU -/

@[simp] theorem State.setSilenced_ic (b : Bool) : (s.setSilenced b).ic = s.ic := by
  simp only [State.setSilenced]
  split <;> rfl

@[simp] theorem State.enterStage_ic (st : Stage) : (s.enterStage st).ic = s.ic := by
  simp only [State.enterStage]
  split <;> simp [State.completeTest]

@[simp] theorem State.requestStage_ic (st : Stage) : (s.requestStage st).ic = s.ic := by
  simp only [State.requestStage]
  split
  · simp
  · rfl

@[simp] theorem State.takeConfirmed_ic (c : PanelCommand) : (s.takeConfirmed c).ic = s.ic := by
  cases c with
  | alert | general | abandon => exact State.requestStage_ic ..
  | silence =>
    simp only [State.takeConfirmed, State.doCommand, State.takeSilence]
    split
    · simp
    · rfl
  | resound =>
    simp only [State.takeConfirmed, State.doCommand, State.takeResound]
    split
    · simp
    · rfl
  | standDown =>
    simp only [State.takeConfirmed, State.doCommand, State.takeStandDown]
    split
    · rfl
    · simp

@[simp] theorem State.tookPanel_ic (p : PanelPort) : (s.tookPanel p).ic = s.ic := rfl

@[simp] theorem State.panelArrival_ic (p : PanelPort) (c : Option PanelContent) (mark : Bool) :
    (s.panelArrival p c mark).ic = s.ic := by
  simp only [State.panelArrival, State.activeArrival]
  split
  · split
    · simp
    · rfl
  · rfl

@[simp] theorem State.tonePeriod_ic : s.tonePeriod.ic = s.ic := by
  simp only [State.tonePeriod]
  split <;> rfl

@[simp] theorem State.endTest_ic : s.endTest.ic = s.ic := by
  simp only [State.endTest]
  split <;> simp [State.completeTest]

@[simp] theorem State.mauAnswered_ic (a : MauAwait) (m : ZoneMask) : (s.mauAnswered a m).ic = s.ic := by
  cases a <;> rfl

@[simp] theorem takeAlarmConfig_ic (k : SlotIx) (p : AlarmConfigParams) : (takeAlarmConfig k p s).ic = s.ic := by
  simp only [takeAlarmConfig]
  split <;> simp

@[simp] theorem takeAlarmTest_ic (k : SlotIx) (p : AlarmTestParams) : (takeAlarmTest k p s).ic = s.ic := by
  simp only [takeAlarmTest]
  split
  · simp
  · split
    · simp
    · split
      · simp
      · split
        · simp
        · split
          · simp
          · rfl

@[simp] theorem takePatternLoad_ic (k : SlotIx) (p : PatternLoadParams) : (takePatternLoad k p s).ic = s.ic := by
  simp only [takePatternLoad]
  split
  · simp
  · split
    · simp
    · split
      · simp
      · rfl

@[simp] theorem State.finishLoad_ic (l : PatternLoad) (r : BusRead 272) : (s.finishLoad l r).ic = s.ic := by
  simp only [State.finishLoad]
  split
  · simp
  · split
    · simp
    · split <;> simp

/-! ### AU -/

@[simp] theorem takeAnnounce_ic (k : SlotIx) (p : AnnounceParams) : (takeAnnounce k p s).ic = s.ic := by
  simp only [takeAnnounce]
  split
  · simp
  · split
    · simp
    · split
      · simp
      · split
        · simp
        · split
          · simp
          · rfl

@[simp] theorem State.clipAction_ic (n : Nat) (a : Addr) (len : Nat) (set : SetIx) (chime : Bool) (p : Policy) (e : Nat) :
    (s.clipAction n a len set chime p e).ic = s.ic := by
  simp only [State.clipAction]
  split
  · rfl
  · split
    · rfl
    · split
      · rfl
      · split <;> rfl

@[simp] theorem State.enterClip_ic (p : Player) : (s.enterClip p).ic = s.ic := (touches_enterClip s p).ic

@[simp] theorem State.startPlayer_ic (p : Player) (e : Entry) (m : ZoneMask) : (s.startPlayer p e m).ic = s.ic := by
  simp only [State.startPlayer]
  split
  · rfl
  · simp only [State.enterClip_ic]
    rfl

@[simp] theorem State.clipEnded_ic (p : Player) : (s.clipEnded p).ic = s.ic := (touches_endPlayer s p _).ic

@[simp] theorem State.playersPeriod_ic : ((List.finRange 4).foldl State.playerPeriod s).ic = s.ic :=
  foldl_ic _ _ (fun t p => (touches_playerPeriod t p).ic) _

@[simp] theorem State.stopPlayer_ic (o : JobOutcome) (p : Player) : (s.stopPlayer o p).ic = s.ic :=
  (touches_stopPlayer s p o).ic

@[simp] theorem State.stopPlayers_ic (o : JobOutcome) : (s.stopPlayers o).ic = s.ic := (State.touches_stopPlayers (s := s) (o := o)).ic

@[simp] theorem State.dropEntry_ic (o : JobOutcome) (e : Entry) : (s.dropEntry o e).ic = s.ic := s.handOver?_ic ..

@[simp] theorem State.expireEntries_ic : s.expireEntries.ic = s.ic :=
  foldl_ic _ _ (fun t e => t.dropEntry_ic .expired e) _

@[simp] theorem State.visit_ic (i : Nat) : (s.visit i).ic = s.ic := by
  simp only [State.visit]
  split <;> rfl

@[simp] theorem State.examAnswer_ic (x : Exam) (m : ZoneMask) : (s.examAnswer x m).ic = s.ic := by
  simp only [State.examAnswer]
  split
  · split <;> simp
  · simp

@[simp] theorem State.clipFetched_ic (p : Player) (k n : Nat) (r : BusRead 192) : (s.clipFetched p k n r).ic = s.ic := by
  simp only [State.clipFetched]
  split
  · rfl
  · split
    · simp
    · split <;> rfl

@[simp] theorem takeAnnounceCancel_ic (k : SlotIx) (p : AnnounceCancelParams) : (takeAnnounceCancel k p s).ic = s.ic := by
  simp only [takeAnnounceCancel]
  split
  · simp
  · split
    · simp
    · split <;> simp

@[simp] theorem State.auTornDown_ic : s.auTornDown.ic = s.ic := by
  simp only [State.auTornDown]
  rw [foldl_ic _ _ fun t e => t.dropEntry_ic .aborted e, State.modAu_ic, State.stopPlayers_ic]

/-! ### SU -/

variable (c : Stream)

@[simp] theorem State.setChan_ic (r : Chan) : (s.setChan c r).ic = s.ic := (touches_setChan s c r).ic

@[simp] theorem State.topUp_ic : (s.topUp c).ic = s.ic := (touches_topUp s c).ic

@[simp] theorem State.stopChannel_ic : (s.stopChannel c).ic = s.ic := (touches_stopChannel s c).ic

@[simp] theorem State.stopWithFade_ic (n : Nat) : (s.stopWithFade c n).ic = s.ic := (touches_stopWithFade s c n).ic

@[simp] theorem State.levelChannel_ic (m n : Nat) : (s.levelChannel c m n).ic = s.ic := s.setChan_ic ..

@[simp] theorem State.startChannel_ic (i m n : Nat) : (s.startChannel c i m n).ic = s.ic := by
  simp only [State.startChannel, State.fadeChannel, State.setChan_ic, (touches_probe _ c i).ic]

@[simp] theorem State.blockEnded_ic (p : Playing) : (s.blockEnded c p).ic = s.ic := (touches_blockEnded s c p).ic

@[simp] theorem State.faultChannel_ic : (s.faultChannel c).ic = s.ic := (touches_faultChannel s c).ic

@[simp] theorem State.probed_ic (i n : Nat) (b : BusRead 16) : (s.probed c i n b).ic = s.ic := by
  simp only [State.probed]
  split
  · rfl
  · split
    · simp
    · split
      · split
        · simp only [State.takeDescriptor]
          split <;> simp [(touches_writeDescriptor _ c i descriptorPlaying).ic]
        · simp
      · simp

@[simp] theorem State.blockFetched_ic (i k n : Nat) (b : BusRead 192) : (s.blockFetched c i k n b).ic = s.ic := by
  simp only [State.blockFetched]
  split
  · rfl
  · split <;> simp

@[simp] theorem takeStreamSet_ic (k : SlotIx) (p : StreamSetParams) : (takeStreamSet k p s).ic = s.ic := by
  simp only [takeStreamSet]
  split
  · simp
  · simp
  · split
    · simp
    · split <;> simp

@[simp] theorem takeStreamStart_ic (k : SlotIx) (p : StreamStartParams) : (takeStreamStart k p s).ic = s.ic := by
  simp only [takeStreamStart]
  split
  · simp
  · split
    · simp
    · split
      · simp
      · split
        · simp
        · split <;> simp

@[simp] theorem takeStreamStop_ic (k : SlotIx) (p : StreamStopParams) : (takeStreamStop k p s).ic = s.ic := by
  simp only [takeStreamStop]
  split
  · simp
  · split
    · simp
    · split <;> simp

@[simp] theorem takeStreamLevel_ic (k : SlotIx) (p : StreamLevelParams) : (takeStreamLevel k p s).ic = s.ic := by
  simp only [takeStreamLevel]
  split
  · simp
  · split <;> simp

@[simp] theorem State.channelsPeriod_ic : ((List.finRange 16).foldl State.channelPeriod s).ic = s.ic :=
  foldl_ic _ _ (fun t d => (touches_channelPeriod t d).ic) _

@[simp] theorem State.act_ic (n : Nat) (a : Action) : (s.act n a).ic = s.ic := by
  cases a with
  | streamStart d i m f =>
    simp only [State.act]
    split
    · split
      · simp
      · rfl
    · rfl
  | streamStop d f =>
    simp only [State.act]
    split
    · rfl
    · split <;> simp
  | streamLevel d m f =>
    simp only [State.act]
    split
    · rfl
    · simp
  | route d k g => rfl
  | clip a len set chime p e => exact s.clipAction_ic ..

@[simp] theorem State.fireCue_ic : s.fireCue.ic = s.ic := by
  simp only [State.fireCue]
  split
  · split
    · exact foldl_ic _ _ (fun t a => t.act_ic _ a) _
    · rfl
  · rfl

theorem fireDue_ic (n : Nat) (s : State) : (fireDue n s).ic = s.ic := by
  induction n generalizing s with
  | zero => rfl
  | succ n ih =>
    rw [fireDue]
    split
    · rw [ih, State.fireCue_ic]
    · rfl

@[simp] theorem State.showPeriod_ic : s.showPeriod.ic = s.ic := by
  simp only [State.showPeriod]
  split
  · simp [fireDue_ic]
  · rfl

@[simp] theorem State.hold_ic (r : HoldReason) : (s.hold r).ic = s.ic :=
  foldl_ic _ _ (fun t c => t.setChan_ic c _) _

@[simp] theorem State.resumeAll_ic : s.resumeAll.ic = s.ic := foldl_ic _ _ (fun t c => t.setChan_ic c _) _

@[simp] theorem takeShowGo_ic (k : SlotIx) : (takeShowGo k s).ic = s.ic := by
  simp only [takeShowGo]
  split
  · simp
  · split <;> simp

@[simp] theorem takeShowHold_ic (k : SlotIx) : (takeShowHold k s).ic = s.ic := by
  simp only [takeShowHold]
  split <;> simp

@[simp] theorem takeShowResume_ic (k : SlotIx) : (takeShowResume k s).ic = s.ic := by
  simp only [takeShowResume]
  split
  · simp
  · split <;> simp

@[simp] theorem State.stopShowChannel_ic (n : Nat) : (State.stopShowChannel n s c).ic = s.ic := by
  simp only [State.stopShowChannel]
  split <;> simp

@[simp] theorem takeShowStop_ic (k : SlotIx) (p : ShowStopParams) : (takeShowStop k p s).ic = s.ic := by
  simp only [takeShowStop]
  split <;> simp [foldl_ic _ _ fun t d => t.stopShowChannel_ic d p.fade.toNat]

@[simp] theorem takeShowLoad_ic (k : SlotIx) (p : ShowLoadParams) : (takeShowLoad k p s).ic = s.ic := by
  simp only [takeShowLoad]
  split
  · simp
  · split
    · simp
    · split
      · simp
      · rfl

@[simp] theorem State.endLoad_ic (l : ShowLoad) (d : Completion) : (s.endLoad l d).ic = s.ic := State.handOver_ic ..

@[simp] theorem State.listRead_ic (l : ShowLoad) (r : BusRead 16) : (s.listRead l r).ic = s.ic := by
  simp only [State.listRead]
  split
  · simp
  · rfl
  · simp only [State.loadTable]
    split <;> simp

@[simp] theorem State.suTornDown_ic : s.suTornDown.ic = s.ic := by
  rw [State.suTornDown, State.modShow_ic, foldl_ic _ _ fun t d => (touches_tearDownChannel t d).ic]

@[simp] theorem State.suJobReset_ic : s.suJobReset.ic = s.ic := by
  have reset (t : State) (d : Stream) : (t.resetChannel d).ic = t.ic := by
    simp only [State.resetChannel]
    split <;> simp
  simp only [State.suJobReset]
  split <;> simp [foldl_ic _ _ reset]

/-! ### LP -/

@[simp] theorem State.toMau_ic (p : PanelPort) (ms : List MauMsg) : (s.toMau p ms).ic = s.ic := rfl

@[simp] theorem State.toAmp_ic (p : AmpPort) (ms : List AmpMsg) : (s.toAmp p ms).ic = s.ic := rfl

@[simp] theorem State.passTold_ic (b : Bool) (p : Port) : (s.passTold b p).ic = s.ic := by
  cases p <;> (simp only [State.passTold]; split <;> rfl)

@[simp] theorem State.receive_ic (p : Port) (f : Rx → Rx) : (s.receive p f).ic = s.ic := by
  simp [State.receive, State.setRx]

@[simp] theorem State.takeStationFrame_ic (p : StationPort) (f : StationFrame) : (s.takeStationFrame p f).ic = s.ic := by
  simp only [State.takeStationFrame]
  split <;> split <;> rfl

end

end Sys2Proof.Machine

namespace Sys2Proof.Machine

/-! ## Commands that leave IS's record -/

/-- Where a command is answered, IS's record is then as `P` says. -/
def leavesIc (P : Ic → Prop) (o : Out) : Prop := ∀ t, o = .next t → P t.ic

/-- A command of another unit: where it is answered, IS's record is as it was. -/
def keepsIc (s : State) (o : Out) : Prop := leavesIc (· = s.ic) o

section
variable {P : Ic → Prop} {s u : State} {f : State → State} {due free : Bool} {k : SlotIx} {r : Request}

theorem leavesIc_next : leavesIc P (.next u) ↔ P u.ic := by
  refine ⟨fun h => h u rfl, fun done t same => ?_⟩
  obtain rfl := Host.Outcome.next.inj same
  exact done

theorem leavesIc_settle : leavesIc P (settle s u) ↔ P u.ic := by
  obtain ⟨t, answer, settles⟩ := settle_settles s u
  rw [answer, leavesIc_next, settles.ic]

theorem leavesIc_event : leavesIc P (event due s f) ↔ P (if due then f s else s).ic := by
  cases due with
  | false => exact leavesIc_next
  | true => exact leavesIc_settle

theorem leavesIc_request :
    leavesIc P (request k r free s f) ↔ P (if s.dispatches k r && free then f s else s).ic := by
  rw [request, leavesIc_event]
  split
  · rw [State.dealtWith_ic]
  · rfl

@[simp] theorem keepsIc_next : keepsIc s (.next u) ↔ u.ic = s.ic := leavesIc_next

@[simp] theorem keepsIc_settle : keepsIc s (settle s u) ↔ u.ic = s.ic := leavesIc_settle

@[simp] theorem keepsIc_event : keepsIc s (event due s f) ↔ (due = true → (f s).ic = s.ic) := by
  rw [keepsIc, leavesIc_event]
  split <;> simp [*]

@[simp] theorem keepsIc_request :
    keepsIc s (request k r free s f) ↔ ((s.dispatches k r && free) = true → (f s).ic = s.ic) := by
  rw [keepsIc, leavesIc_request]
  split <;> simp [*]

end

section
variable (s : State)

/-! ### XU -/

theorem execAttach_keepsIc : keepsIc s (execAttach s) := by
  simp [execAttach]

theorem execDetach_keepsIc : keepsIc s (execDetach s) := by
  simp [execDetach]

theorem execScan_keepsIc : keepsIc s (execScan s) := by
  simp [execScan]

theorem execNoticeRead_keepsIc : keepsIc s (execNoticeRead s) := by
  simp [execNoticeRead]

theorem execNoticeEnableWrite_keepsIc (v : BitVec 32) : keepsIc s (execNoticeEnableWrite v s) := by
  simp [execNoticeEnableWrite]

theorem execHeaderReadComplete_keepsIc (r : BusRead 256) : keepsIc s (execHeaderReadComplete r s) := by
  unfold execHeaderReadComplete
  split <;> simp

theorem execScanIntervalExpiry_keepsIc : keepsIc s (execScanIntervalExpiry s) := by
  simp [execScanIntervalExpiry]

theorem execMeterIntervalExpiry_keepsIc : keepsIc s (execMeterIntervalExpiry s) := by
  simp [execMeterIntervalExpiry]

theorem xuPeriodStart_keepsIc : keepsIc s (xuPeriodStart s) := by
  simp [xuPeriodStart]

theorem execSlotReadComplete_keepsIc (b : Table 64 Byte) : keepsIc s (execSlotReadComplete b s) := by
  unfold execSlotReadComplete
  split <;> simp

theorem execStateWriteComplete_keepsIc : keepsIc s (execStateWriteComplete s) := by
  unfold execStateWriteComplete
  split <;> simp

theorem execRewriteEnd_keepsIc : keepsIc s (execRewriteEnd s) := by
  unfold execRewriteEnd
  split <;> simp

theorem execMeterRewriteEnd_keepsIc : keepsIc s (execMeterRewriteEnd s) := by
  unfold execMeterRewriteEnd
  split <;> simp

theorem execAreaBusError_keepsIc : keepsIc s (execAreaBusError s) := by
  unfold execAreaBusError
  split <;> simp

theorem execBusGrant_keepsIc : keepsIc s (execBusGrant s) := by
  simp [execBusGrant]

theorem execSetMode_keepsIc (k : SlotIx) (p : SetModeParams) : keepsIc s (execSetMode k p s) := by
  simp [execSetMode]

/-! ### ZM -/

theorem execZoneSet_keepsIc (k : SlotIx) (p : ZoneSetParams) : keepsIc s (execZoneSet k p s) := by
  simp [execZoneSet]

theorem execZoneFill_keepsIc (k : SlotIx) (p : ZoneFillParams) : keepsIc s (execZoneFill k p s) := by
  simp [execZoneFill]

theorem execZonesetDefine_keepsIc (k : SlotIx) (p : ZonesetDefineParams) : keepsIc s (execZonesetDefine k p s) := by
  simp [execZonesetDefine]

theorem execRouteSet_keepsIc (k : SlotIx) (p : RouteSetParams) : keepsIc s (execRouteSet k p s) := by
  simp [execRouteSet]

theorem execMixPeriodStart_keepsIc : keepsIc s (execMixPeriodStart s) := by
  simp [execMixPeriodStart]

theorem execClaimRequest_keepsIc (u : Block) : keepsIc s (execClaimRequest u s) := by
  unfold execClaimRequest
  split <;> simp

theorem execReleaseRequest_keepsIc (u : Block) : keepsIc s (execReleaseRequest u s) := by
  unfold execReleaseRequest
  split <;> simp

theorem execHeldPeriodDelivery_keepsIc (src : Source) : keepsIc s (execHeldPeriodDelivery src s) := by
  unfold execHeldPeriodDelivery
  split <;> simp

theorem execStreamPosting_keepsIc : keepsIc s (execStreamPosting s) := by
  unfold execStreamPosting
  split <;> simp

theorem execConversationPosting_keepsIc : keepsIc s (execConversationPosting s) := by
  unfold execConversationPosting
  split <;> simp

theorem execPageChannelPosting_keepsIc : keepsIc s (execPageChannelPosting s) := by
  unfold execPageChannelPosting
  split <;> simp

theorem execSilencedPosting_keepsIc : keepsIc s (execSilencedPosting s) := by
  unfold execSilencedPosting
  split <;> simp

theorem execModePosting_keepsIc : keepsIc s (execModePosting s) := by
  unfold execModePosting
  split <;> simp

theorem execLineStatusReport_keepsIc (p : AmpPort) : keepsIc s (execLineStatusReport p s) := by
  unfold execLineStatusReport
  split <;> simp

theorem execAmpPassLoss_keepsIc (p : AmpPort) : keepsIc s (execAmpPassLoss p s) := by
  unfold execAmpPassLoss
  split <;> simp

/-! ### AU -/

theorem execAnnounce_keepsIc (k : SlotIx) (p : AnnounceParams) : keepsIc s (execAnnounce k p s) := by
  simp [execAnnounce]

theorem execAnnounceCancel_keepsIc (k : SlotIx) (p : AnnounceCancelParams) : keepsIc s (execAnnounceCancel k p s) := by
  simp [execAnnounceCancel]

theorem execAuTeardown_keepsIc : keepsIc s (execAuTeardown s) := by
  unfold execAuTeardown
  split <;> simp

theorem execReleaseNotice_keepsIc : keepsIc s (execReleaseNotice s) := by
  simp [execReleaseNotice]

theorem execEligibilityExamination_keepsIc : keepsIc s (execEligibilityExamination s) := by
  simp [execEligibilityExamination]

theorem execAuPeriodStart_keepsIc : keepsIc s (execAuPeriodStart s) := by
  simp [execAuPeriodStart]

theorem execEntryExpiry_keepsIc : keepsIc s (execEntryExpiry s) := by
  simp [execEntryExpiry]

theorem execClipEnd_keepsIc (p : Player) : keepsIc s (execClipEnd p s) := by
  simp [execClipEnd]

theorem execPlayerChimeEnd_keepsIc (p : Player) : keepsIc s (execPlayerChimeEnd p s) := by
  simp [execPlayerChimeEnd]

theorem execClipFetchComplete_keepsIc (r : BusRead 192) : keepsIc s (execClipFetchComplete r s) := by
  unfold execClipFetchComplete
  split <;> simp

theorem execPreemption_keepsIc : keepsIc s (execPreemption s) := by
  simp [execPreemption]

theorem auAnswer_keepsIc : keepsIc s (auAnswer s) := by
  unfold auAnswer
  split <;> simp

/-! ### MAU -/

theorem execAlarmConfig_keepsIc (k : SlotIx) (p : AlarmConfigParams) : keepsIc s (execAlarmConfig k p s) := by
  simp [execAlarmConfig]

theorem execAlarmTest_keepsIc (k : SlotIx) (p : AlarmTestParams) : keepsIc s (execAlarmTest k p s) := by
  simp [execAlarmTest]

theorem execPatternLoad_keepsIc (k : SlotIx) (p : PatternLoadParams) : keepsIc s (execPatternLoad k p s) := by
  simp [execPatternLoad]

theorem execPanelFrameArrival_keepsIc (p : PanelPort) : keepsIc s (execPanelFrameArrival p s) := by
  unfold execPanelFrameArrival
  split <;> simp

theorem execPanelPassChange_keepsIc (p : PanelPort) : keepsIc s (execPanelPassChange p s) := by
  unfold execPanelPassChange
  split <;> simp

theorem takeIfConfirmed_keepsIc (c : PanelCommand) : keepsIc s (takeIfConfirmed c s) := by
  simp [takeIfConfirmed]

theorem execMauPeriodStart_keepsIc : keepsIc s (execMauPeriodStart s) := by
  simp only [execMauPeriodStart, keepsIc_event]
  intro due
  split <;> simp

theorem execAlarmTestEnd_keepsIc : keepsIc s (execAlarmTestEnd s) := by
  simp [execAlarmTestEnd]

theorem execPatternListComplete_keepsIc (r : BusRead 272) : keepsIc s (execPatternListComplete r s) := by
  unfold execPatternListComplete
  split
  · rw [keepsIc_event]
    intro free
    split <;> simp
  · simp

theorem mauAnswer_keepsIc : keepsIc s (mauAnswer s) := by
  unfold mauAnswer
  split <;> simp

/-! ### SU -/

theorem execStreamSet_keepsIc (k : SlotIx) (p : StreamSetParams) : keepsIc s (execStreamSet k p s) := by
  simp [execStreamSet]

theorem execStreamStart_keepsIc (k : SlotIx) (p : StreamStartParams) : keepsIc s (execStreamStart k p s) := by
  simp [execStreamStart]

theorem execStreamStop_keepsIc (k : SlotIx) (p : StreamStopParams) : keepsIc s (execStreamStop k p s) := by
  simp [execStreamStop]

theorem execStreamLevel_keepsIc (k : SlotIx) (p : StreamLevelParams) : keepsIc s (execStreamLevel k p s) := by
  simp [execStreamLevel]

theorem execShowLoad_keepsIc (k : SlotIx) (p : ShowLoadParams) : keepsIc s (execShowLoad k p s) := by
  simp [execShowLoad]

theorem execShowGo_keepsIc (k : SlotIx) : keepsIc s (execShowGo k s) := by
  simp [execShowGo]

theorem execShowHold_keepsIc (k : SlotIx) : keepsIc s (execShowHold k s) := by
  simp [execShowHold]

theorem execShowResume_keepsIc (k : SlotIx) : keepsIc s (execShowResume k s) := by
  simp [execShowResume]

theorem execShowStop_keepsIc (k : SlotIx) (p : ShowStopParams) : keepsIc s (execShowStop k p s) := by
  simp [execShowStop]

theorem execSuTeardown_keepsIc : keepsIc s (execSuTeardown s) := by
  unfold execSuTeardown
  split <;> simp

theorem execSuPeriodStart_keepsIc : keepsIc s (execSuPeriodStart s) := by
  simp [execSuPeriodStart]

theorem execFadeEnd_keepsIc (c : Stream) : keepsIc s (execFadeEnd c s) := by
  simp [execFadeEnd, apply_ite State.ic]

theorem execBlockEnd_keepsIc (c : Stream) : keepsIc s (execBlockEnd c s) := by
  unfold execBlockEnd
  split <;> simp [apply_ite State.ic]

theorem execProbeComplete_keepsIc (r : BusRead 16) : keepsIc s (execProbeComplete r s) := by
  unfold execProbeComplete
  split <;> simp

theorem execBlockFetchComplete_keepsIc (r : BusRead 192) : keepsIc s (execBlockFetchComplete r s) := by
  unfold execBlockFetchComplete
  split <;> simp

theorem execDescriptorWriteComplete_keepsIc (b : Bool) : keepsIc s (execDescriptorWriteComplete b s) := by
  unfold execDescriptorWriteComplete
  split <;> simp [apply_ite State.ic]

theorem execCueFire_keepsIc : keepsIc s (execCueFire s) := by
  simp [execCueFire]

theorem execCueListReadComplete_keepsIc (r : BusRead 16) : keepsIc s (execCueListReadComplete r s) := by
  unfold execCueListReadComplete
  split
  · split <;> simp
  · simp

theorem execAlarmHold_keepsIc : keepsIc s (execAlarmHold s) := by
  simp only [execAlarmHold, keepsIc_event]
  intro due
  split <;> simp

/-! ### LP -/

theorem execSignalPresent_keepsIc (p : Port) : keepsIc s (execSignalPresent p s) := by
  simp [execSignalPresent]

theorem execSignalLost_keepsIc (p : Port) : keepsIc s (execSignalLost p s) := by
  simp [execSignalLost]

theorem execFrameMissing_keepsIc (p : Port) : keepsIc s (execFrameMissing p s) := by
  simp [execFrameMissing]

theorem execStationFrame_keepsIc (p : StationPort) (f : StationFrame) : keepsIc s (execStationFrame p f s) := by
  unfold execStationFrame
  split <;> simp

theorem execPanelFrame_keepsIc (p : PanelPort) (f : PanelFrame) : keepsIc s (execPanelFrame p f s) := by
  simp only [execPanelFrame]
  split <;> simp

theorem execBackChannelFrame_keepsIc (p : AmpPort) (f : BackFrame) : keepsIc s (execBackChannelFrame p f s) := by
  unfold execBackChannelFrame
  split <;> simp [apply_ite State.ic]

theorem execStationTransmit_keepsIc (p : StationPort) : keepsIc s (execStationTransmit p s) := by
  simp [execStationTransmit]

theorem execPanelTransmit_keepsIc (p : PanelPort) : keepsIc s (execPanelTransmit p s) := by
  simp [execPanelTransmit]

theorem execAmplifierTransmit_keepsIc (p : AmpPort) : keepsIc s (execAmplifierTransmit p s) := by
  simp [execAmplifierTransmit]

end

end Sys2Proof.Machine

namespace Sys2Proof.Machine

/-! ## IS's own commands keep the structure (R73, R77, R99) -/

/-- IS awaits no answer, and the structure stands with nobody late. -/
def State.inOrder (s : State) : Prop := s.ic.orderly fun _ => False

theorem Ic.sound.inOrder {s : State} (h : s.ic.sound) (free : s.ic.freeToAct = true) : s.inOrder :=
  h.orderly (Option.isNone_iff_eq_none.mp free)

/-- The taking of a word moves a notice at most. -/
theorem StationRec.took_like (r : StationRec) (k : BitVec 4) : r.standing.like (r.took k).standing := by
  obtain ⟨_, _, _, v, _, _, _⟩ := r
  cases v with
  | idle n => exact .inr (.inl ⟨n, .quiet, rfl, rfl⟩)
  | _ => exact .inl rfl

section
variable {s : State} (h : s.ic.sound)
include h

/-- A command that IS takes while it awaits no answer. -/
theorem leavesIc.whenFree {due : Bool} {f : State → State} (guarded : due = true → s.ic.freeToAct = true)
    (acts : s.inOrder → (f s).ic.sound) : leavesIc Ic.sound (event due s f) := by
  rw [leavesIc_event]
  split
  · exact acts (h.inOrder (guarded ‹_›))
  · exact h

theorem leavesIc.requestWhenFree {k : SlotIx} {r : Request} {f : State → State} (acts : s.inOrder → (f s).ic.sound) :
    leavesIc Ic.sound (request k r s.icTakesRequest s f) := by
  rw [leavesIc_request]
  split
  case isTrue due =>
    have takes : s.icTakesRequest = true := (Bool.and_eq_true_iff.mp due).2
    exact acts (h.inOrder (Bool.and_eq_true_iff.mp takes).1)
  case isFalse => exact h

omit h in
/-- The taking of a word changes a notice and a counter (R74, R75). -/
theorem State.inOrder.took {p : StationPort} (free : s.inOrder) (a : Station) (k : BitVec 4) :
    ((s.tookStation p).modStation a fun r => r.took k).inOrder := by
  refine Ic.orderly.alike free (fun b => ?_) (funext fun b => ?_) (fun c => rfl) rfl rfl
  · simp only [Ic.standings, State.modStation, State.modIc, Table.get_modify]
    split
    · subst_vars
      exact StationRec.took_like ..
    · exact .inl rfl
  · simp only [Ic.lists, State.modStation, State.modIc, Table.get_modify]
    split
    · subst_vars
      rfl
    · rfl

/-- A station's word keeps the structure if what its event does keeps it. -/
theorem leavesIc.stationEvent {a : Station} {fits : ControlWord → Bool} {act : State → State}
    (acts : ∀ t : State, t.inOrder → (act t).ic.sound) : leavesIc Ic.sound (stationEvent a fits s act) := by
  unfold Machine.stationEvent
  split
  case h_1 w _ =>
    split
    case isTrue due =>
      have free := h.inOrder (Bool.and_eq_true_iff.mp due).2
      dsimp only
      split
      · exact leavesIc_settle.mpr h
      · split
        · exact leavesIc_next.mpr h
        · split
          · exact leavesIc_settle.mpr h
          · exact leavesIc_settle.mpr (acts _ (free.took a _))
    case isFalse => exact leavesIc_next.mpr h
  case h_2 => exact leavesIc_next.mpr h

theorem execCall_sound (a : Station) (b : BitVec 8) : leavesIc Ic.sound (execCall a b s) :=
  leavesIc.stationEvent h fun _ free => (Ic.orderly.takeCall free a _).sound

theorem execAnswer_sound (a : Station) : leavesIc Ic.sound (execAnswer a s) :=
  leavesIc.stationEvent h fun _ free => (Ic.orderly.takeAnswer free a).sound

theorem execClear_sound (a : Station) : leavesIc Ic.sound (execClear a s) :=
  leavesIc.stationEvent h fun _ free => (Ic.orderly.clearStation free a).sound

theorem execGroupJoin_sound (a : Station) (g : BitVec 8) : leavesIc Ic.sound (execGroupJoin a g s) :=
  leavesIc.stationEvent h fun _ free => (Ic.orderly.joinGroup free a _).sound

theorem execPage_sound (a : Station) (set : BitVec 7) (e : Bool) : leavesIc Ic.sound (execPage a set e s) :=
  leavesIc.stationEvent h fun _ free => Ic.orderly.takePage free a _ e

theorem execTalkDown_sound (a : Station) : leavesIc Ic.sound (execTalkDown a s) :=
  leavesIc.stationEvent h fun _ free => (Ic.orderly.setKey free a true).sound

theorem execTalkUp_sound (a : Station) : leavesIc Ic.sound (execTalkUp a s) :=
  leavesIc.stationEvent h fun _ free => (Ic.orderly.setKey free a false).sound

theorem execUndefinedStationEvent_sound (a : Station) (k : BitVec 4) :
    leavesIc Ic.sound (execUndefinedStationEvent a k s) :=
  leavesIc.stationEvent h fun _ free => Ic.orderly.sound free

theorem execReferenceWord_sound (a : Station) : leavesIc Ic.sound (execReferenceWord a s) := by
  unfold execReferenceWord
  split
  case h_1 w _ =>
    refine leavesIc.whenFree h (fun due => ?_) fun free => ?_
    · exact (Bool.and_eq_true_iff.mp (Bool.and_eq_true_iff.mp due).1).1
    · exact (Ic.orderly.modStation (s := s.tookStation (stationPort a)) free a
        (fun r => { r with counter := some w.counter }) (fun _ => rfl) fun _ => rfl).sound
  case h_2 => exact leavesIc_next.mpr h

/-! ### Time and ZM's answer -/

theorem execIsPeriodStart_sound (first : List Station) : leavesIc Ic.sound (execIsPeriodStart first s) :=
  leavesIc.whenFree h id fun free => (Ic.orderly.periodStart free first).sound

theorem execRingTimeout_sound (a : Station) : leavesIc Ic.sound (execRingTimeout a s) := by
  unfold execRingTimeout
  split
  · exact leavesIc.whenFree h id fun free => (Ic.orderly.ringExpired free a).sound
  · exact leavesIc_next.mpr h

theorem execWaitTimeout_sound (a : Station) : leavesIc Ic.sound (execWaitTimeout a s) := by
  unfold execWaitTimeout
  split
  · exact leavesIc.whenFree h id fun free => (Ic.orderly.waitExpired free a).sound
  · exact leavesIc_next.mpr h

theorem execPageLimitExpiry_sound (c : Channel) : leavesIc Ic.sound (execPageLimitExpiry c s) :=
  leavesIc.whenFree h (fun due => (Bool.and_eq_true_iff.mp due).1) fun free => (Ic.orderly.pageExpired free c).sound

theorem execPageChimeEnd_sound (c : Channel) : leavesIc Ic.sound (execPageChimeEnd c s) :=
  leavesIc.whenFree h (fun due => (Bool.and_eq_true_iff.mp due).1) fun free => (Ic.orderly.openPage free c).sound

theorem icAnswer_sound : leavesIc Ic.sound (icAnswer s) := by
  unfold icAnswer
  split
  case h_1 w m waits _ => exact leavesIc_settle.mpr (Ic.sound.pageAnswer h waits m).sound
  case h_2 => exact leavesIc_next.mpr h

/-- The end of a step moves a page's generator, whether or not IS awaits an answer. -/
theorem Ic.sound.setGen (n : Generator) (g : Option Gen) : (s.setGen n g).ic.sound := by
  cases n with
  | alarm | player p => exact h
  | page c =>
    have pages (d : Channel) : ((s.setGen (.page c) g).ic.channels.get d).map PageRec.station =
        (s.ic.channels.get d).map PageRec.station := by
      simp only [State.setGen, State.modIc, Table.get_modify]
      split
      · subst_vars
        simp [Function.comp_def]
      · rfl
    refine Ic.sound_of_fits ((Ic.fits_of_sound h).congr (fun _ => .inl rfl) pages) (fun a => (h.1 a).2.2) fun w waits => ?_
    obtain ⟨idle, free⟩ := h.2.2 w waits
    exact ⟨idle, Option.map_eq_none_iff.mp ((pages w.channel).trans (free ▸ rfl))⟩

theorem execStepEnd_sound (n : Generator) : leavesIc Ic.sound (execStepEnd n s) := by
  unfold execStepEnd
  split
  · rw [leavesIc_event]
    split
    · exact Ic.sound.setGen h n _
    · exact h
  · exact leavesIc_next.mpr h

/-! ### Requests -/

theorem execStationSet_sound (k : SlotIx) (p : StationSetParams) : leavesIc Ic.sound (execStationSet k p s) := by
  refine leavesIc.requestWhenFree h fun free => ?_
  unfold takeStationSet
  split
  · simpa using h
  · simpa using h
  · simpa using (Ic.orderly.setStation free _ _ _ _).sound

theorem execIntercomConfig_sound (k : SlotIx) (p : IntercomConfigParams) :
    leavesIc Ic.sound (execIntercomConfig k p s) := by
  refine leavesIc.requestWhenFree h fun free => ?_
  rw [takeIntercomConfig, State.perform_ic]
  exact (Ic.orderly.alike free (fun _ => .inl rfl) rfl (fun _ => rfl) rfl rfl).sound

theorem execCallConnect_sound (k : SlotIx) (p : CallConnectParams) : leavesIc Ic.sound (execCallConnect k p s) := by
  refine leavesIc.requestWhenFree h fun free => ?_
  unfold takeCallConnect
  split
  case h_1 | h_2 => simpa using h
  case h_3 a b _ _ =>
    split
    case isTrue => simpa using h
    case isFalse other =>
      split
      case isTrue => simpa using h
      case isFalse idle_a =>
        split
        case isTrue => simpa using h
        case isFalse idle_b =>
          have idle_a : s.stationIdle a := (Standing.isIdle_iff _).mp (by simpa using idle_a)
          have idle_b : s.stationIdle b := (Standing.isIdle_iff _).mp (by simpa using idle_b)
          rw [State.perform_ic]
          exact (Ic.orderly.connect free other (.inl ⟨idle_a, idle_b⟩)).sound

theorem execCallRelease_sound (k : SlotIx) (p : CallReleaseParams) : leavesIc Ic.sound (execCallRelease k p s) := by
  refine leavesIc.requestWhenFree h fun free => ?_
  unfold takeCallRelease
  split
  · simpa using h
  · split
    · simpa using (Ic.orderly.clearStation free _).sound
    · simpa using h

theorem execIsTeardown_sound : leavesIc Ic.sound (execIsTeardown s) := by
  unfold execIsTeardown
  split
  case h_1 q _ =>
    exact leavesIc.whenFree h id fun free =>
      (Ic.orderly.icTornDown (s := s.modNet fun n => { n with xuToIs := q }) free).sound
  case h_2 => exact leavesIc_next.mpr h

end

end Sys2Proof.Machine

namespace Sys2Proof.Machine

/-! ## A port's condition keeps the structure (R77, R78, R91) -/

/-- Those left behind, IDLE, serve in turn until nobody is late. -/
theorem State.foldl_serve_fits {s : State} {l : List Station} (nodup : l.Nodup)
    (h : Fits s.ic.standings s.ic.lists s.ic.channels.get (· ∈ l)) (idle : ∀ a ∈ l, s.stationIdle a) :
    Fits (l.foldl State.serve s).ic.standings (l.foldl State.serve s).ic.lists (l.foldl State.serve s).ic.channels.get
      fun _ => False := by
  induction l generalizing s with
  | nil => exact h.late_mono fun a mem => List.not_mem_nil mem
  | cons a l ih =>
    obtain ⟨new, nodup⟩ := List.nodup_cons.mp nodup
    have served := State.serve_fits h (idle a List.mem_cons_self)
    refine ih nodup (served.late_mono fun b ⟨other, mem⟩ => (List.mem_cons.mp mem).resolve_left other) fun b mem => ?_
    exact (idle b (List.mem_cons_of_mem a mem)).serve h (ne_of_mem_of_not_mem mem new)

/-- Stations that are OFFLINE come online, IDLE with nobody waiting. -/
theorem State.foldl_comeOnline_fits {s : State} {l : List Station} (nodup : l.Nodup)
    (h : Fits s.ic.standings s.ic.lists s.ic.channels.get fun _ => False) (offline : ∀ a ∈ l, s.ic.standings a = .offline) :
    Fits (l.foldl State.comeOnline s).ic.standings (l.foldl State.comeOnline s).ic.lists
      (l.foldl State.comeOnline s).ic.channels.get fun _ => False := by
  induction l generalizing s with
  | nil => exact h
  | cons a l ih =>
    obtain ⟨new, nodup⟩ := List.nodup_cons.mp nodup
    have was := offline a List.mem_cons_self
    have standings : (s.comeOnline a).ic.standings = Function.update s.ic.standings a (.idle .quiet) := by
      funext b
      simp only [Ic.standings, State.comeOnline, State.modStation, State.modIc, Table.get_modify, Function.update_apply]
      split <;> rfl
    have lists : (s.comeOnline a).ic.lists = s.ic.lists := by
      funext b
      simp only [Ic.lists, State.comeOnline, State.modStation, State.modIc, Table.get_modify]
      split
      · subst_vars
        exact (h.offline b was).symm
      · rfl
    refine ih nodup ?_ fun b mem => ?_
    · rw [standings, lists]
      exact h.comeOnline was
    · rw [standings, Function.update_of_ne (ne_of_mem_of_not_mem mem new)]
      exact offline b (List.mem_cons_of_mem a mem)

theorem State.loseStations_fits {s : State} (h : Fits s.ic.standings s.ic.lists s.ic.channels.get fun _ => False)
    {gone : List Station} (nodup : gone.Nodup) :
    Fits (s.loseStations gone).ic.standings (s.loseStations gone).ic.lists (s.loseStations gone).ic.channels.get
      fun _ => False := by
  have left_nodup : (s.leftBehind gone).Nodup := State.leftBy_nodup h nodup
  have may : ∀ a ∈ s.leftBehind gone, (s.lostAndIdled gone (s.leftBehind gone)).mayServe a := fun a mem =>
    State.lostAndIdled_mayServe h (State.mem_leftBehind h) mem
  have served := State.foldl_serve_fits left_nodup (State.lostAndIdled_fits h (State.mem_leftBehind h)) fun a mem => (may a mem).1
  rw [State.foldl_serve left_nodup may] at served
  rwa [State.loseStations_eq h nodup]

/-- What a loss makes of a station that stays is online exactly if it was. -/
theorem State.conditionRec_online (s : State) (gone come : List Station) (a : Station) :
    (s.conditionRec gone come a).standing.online =
      if a ∈ come then true else if a ∈ gone then false else (s.ic.standings a).online := by
  rw [State.conditionRec]
  split
  · rfl
  · split
    · rfl
    · cases ends : s.endsIn gone a with
      | some n =>
        obtain ⟨⟨x, -, by_x⟩, -⟩ := State.endsIn_eq_some ends
        have online : (s.ic.standings a).online = true := by
          cases stands : s.ic.standings a with
          | offline => simp [stands, Standing.endedBy] at by_x
          | _ => rfl
        rw [online]
        cases s.waitStill gone a <;> rfl
      | none =>
        cases stands : s.ic.standings a with
        | waiting o k =>
          dsimp only
          split <;> rfl
        | _ => rfl

theorem State.comesOnline_nodup {s : State} {p : StationPort} {port : PortCopy} : (s.comesOnline p port).Nodup :=
  ((List.nodup_finRange 64).filter _).filter _

/-- A station that is OFFLINE and is not lost stays so through a loss. -/
theorem State.loseStations_offline {s : State} (h : Fits s.ic.standings s.ic.lists s.ic.channels.get fun _ => False)
    {gone : List Station} (nodup : gone.Nodup) {a : Station} (offline : s.ic.standings a = .offline) :
    (s.loseStations gone).ic.standings a = .offline := by
  have ends : s.endsIn gone a = none := by rw [State.endsIn, offline]; rfl
  rw [Ic.standings, State.loseStations_eq h nodup]
  refine (congrArg StationRec.standing (State.allServed_lostAndIdled_get (State.mem_leftBehind h))).trans ?_
  split
  · rfl
  · simp only [ends, offline]

/-- After a port's condition its stations are online where it reaches them, and the others as they were. -/
theorem State.takeCondition_online {s : State} (h : s.ic.orderly fun _ => False) (p : StationPort) (pass : Bool) (count : Nat)
    (a : Station) : (s.takeCondition p pass count).ic.onlineRight a := by
  have was := h.online a
  rw [Ic.onlineRight, ← Ic.standings_eq] at was
  rw [State.takeCondition_icWith h.fits rfl]
  simp only [Ic.onlineRight, State.icWith_stations, Table.get_build, State.conditionRec_online, State.mem_comesOnline,
    State.mem_goesOffline, ← stationPort_ix]
  change _ = ((s.ic.ports.set p.ix ⟨pass, count⟩).get (stationPort a).ix).reaches a
  by_cases own : (stationPort a).ix = p.ix
  · rw [own, Table.get_set_self]
    cases reaches : (⟨pass, count⟩ : PortCopy).reaches a with
    | true =>
      by_cases offline : s.ic.standings a = .offline
      · simp [offline]
      · simpa [offline] using (Standing.online_iff _).mpr offline
    | false =>
      by_cases offline : s.ic.standings a = .offline
      · simp [offline, Standing.online]
      · simp [offline]
  · rw [Table.get_set_ne _ _ own, ← was]
    simp [own]

theorem State.inOrder.takeCondition {s : State} (h : s.inOrder) (p : StationPort) (pass : Bool) (count : Nat) :
    (s.takeCondition p pass count).inOrder := by
  have kept : Fits s.ic.standings s.ic.lists s.ic.channels.get fun _ => False := Ic.orderly.fits h
  have free : s.ic.awaiting = none := Ic.orderly.free h
  have fits : Fits (s.setPort p ⟨pass, count⟩).ic.standings (s.setPort p ⟨pass, count⟩).ic.lists
      (s.setPort p ⟨pass, count⟩).ic.channels.get fun _ => False := kept
  refine ⟨?_, State.takeCondition_online h p pass count, ?_⟩
  · rw [State.takeCondition_eq]
    refine State.foldl_comeOnline_fits State.comesOnline_nodup (State.loseStations_fits fits State.goesOffline_nodup)
      fun a mem => ?_
    exact State.loseStations_offline fits State.goesOffline_nodup (State.mem_comesOnline.mp mem).2.1
  · rw [State.takeCondition_icWith kept rfl]
    exact free

/-! ## Resets (R71, R72, R78, R201, R202) -/

theorem Ic.reset_sound : Ic.reset.sound := by
  have rec_eq (a : Station) : Ic.reset.stations.get a = StationRec.reset := Table.get_fill ..
  refine Ic.sound_of_fits (Fits.of_alone (fun a => .inl ?_) (fun a => ?_) fun c => Table.get_fill none c) (fun a => ?_) nofun
  · rw [Ic.standings, rec_eq]
    rfl
  · rw [Ic.lists, rec_eq]
    rfl
  · rw [Ic.onlineRight, rec_eq]
    simp [Ic.reset, StationRec.reset, Standing.online, PortCopy.reaches]

theorem Ic.softReset_sound (l : Lp) : (Ic.softReset l).sound := by
  have rec_eq (a : Station) : (Ic.softReset l).stations.get a =
      if (l.portCopy (stationPort a).ix).reaches a then StationRec.reset.comeOnline else .reset := Table.get_build ..
  refine Ic.sound_of_fits (Fits.of_alone (fun a => ?_) (fun a => ?_) fun c => Table.get_fill none c) (fun a => ?_) nofun
  · rw [Ic.standings, rec_eq]
    split
    · exact .inr ⟨.quiet, rfl⟩
    · exact .inl rfl
  · rw [Ic.lists, rec_eq]
    split <;> rfl
  · rw [Ic.onlineRight, rec_eq]
    simp only [Ic.softReset, Table.get_build]
    cases (l.portCopy (stationPort a).ix).reaches a <;> rfl

section
variable {s : State} (h : s.ic.sound)
include h

theorem execPortCondition_sound (p : StationPort) : leavesIc Ic.sound (execPortCondition p s) := by
  unfold execPortCondition
  split
  case h_1 pass count q _ =>
    exact leavesIc.whenFree h id fun free =>
      (State.inOrder.takeCondition (s := s.tookStation p) free p pass count).sound
  case h_2 => exact leavesIc_next.mpr h

theorem keepsIc.sound {o : Out} (kept : keepsIc s o) : leavesIc Ic.sound o := fun t answer => kept t answer ▸ h

theorem execJobReset_sound (u : Block) : leavesIc Ic.sound (execJobReset u s) := by
  cases u with
  | is =>
    simp only [execJobReset]
    split
    · exact leavesIc.whenFree h id fun _ => Ic.softReset_sound _
    · exact leavesIc_next.mpr h
  | au =>
    refine keepsIc.sound h ?_
    simp only [execJobReset]
    split <;> simp
  | su =>
    refine keepsIc.sound h ?_
    simp only [execJobReset]
    split <;> simp
  | zm =>
    refine keepsIc.sound h ?_
    simp only [execJobReset]
    split <;> simp
  | xu | lp | mau => exact leavesIc_next.mpr h

theorem execClaimAnswer_sound (u : Block) : leavesIc Ic.sound (execClaimAnswer u s) := by
  cases u with
  | au => exact keepsIc.sound h (auAnswer_keepsIc s)
  | is => exact icAnswer_sound h
  | mau => exact keepsIc.sound h (mauAnswer_keepsIc s)
  | xu | lp | zm | su => exact leavesIc_next.mpr h

theorem execRegisterWrite_sound (r : Register) (v : BitVec 32) : leavesIc Ic.sound (execRegisterWrite r v s) := by
  cases r with
  | ident | notice => exact leavesIc_next.mpr h
  | control =>
    simp only [execRegisterWrite]
    split
    · exact leavesIc_next.mpr (Ic.softReset_sound s.lp)
    · exact leavesIc_settle.mpr (by rwa [State.control_ic])
  | areaLo | areaHi | noticeEnable => exact leavesIc_settle.mpr h

end

theorem execPowerOnReset_sound (s : State) : leavesIc Ic.sound (execPowerOnReset s) :=
  leavesIc_settle.mpr Ic.reset_sound

theorem execHardwareReset_sound (s : State) : leavesIc Ic.sound (execHardwareReset s) :=
  leavesIc_settle.mpr Ic.reset_sound

theorem execSoftwareReset_sound (s : State) : leavesIc Ic.sound (execSoftwareReset s) :=
  leavesIc_next.mpr (Ic.softReset_sound s.lp)

/-! ## Every step -/

/-- Every command keeps the structure: those of other units leave IS's record, those that IS takes keep it sound. -/
theorem exec_sound {s : State} (h : s.ic.sound) (c : Instr) : leavesIc Ic.sound (exec c s) := by
  cases c with
  | powerOnReset => exact execPowerOnReset_sound s
  | hardwareReset => exact execHardwareReset_sound s
  | softwareReset => exact execSoftwareReset_sound s
  | attach => exact keepsIc.sound h (execAttach_keepsIc s)
  | detach => exact keepsIc.sound h (execDetach_keepsIc s)
  | scan => exact keepsIc.sound h (execScan_keepsIc s)
  | noticeRead => exact keepsIc.sound h (execNoticeRead_keepsIc s)
  | noticeEnableWrite v => exact keepsIc.sound h (execNoticeEnableWrite_keepsIc s v)
  | registerWrite r v => exact execRegisterWrite_sound h r v
  | headerReadComplete r => exact keepsIc.sound h (execHeaderReadComplete_keepsIc s r)
  | scanIntervalExpiry => exact keepsIc.sound h (execScanIntervalExpiry_keepsIc s)
  | meterIntervalExpiry => exact keepsIc.sound h (execMeterIntervalExpiry_keepsIc s)
  | slotReadComplete bytes => exact keepsIc.sound h (execSlotReadComplete_keepsIc s bytes)
  | stateWriteComplete => exact keepsIc.sound h (execStateWriteComplete_keepsIc s)
  | rewriteEnd => exact keepsIc.sound h (execRewriteEnd_keepsIc s)
  | meterRewriteEnd => exact keepsIc.sound h (execMeterRewriteEnd_keepsIc s)
  | areaBusError => exact keepsIc.sound h (execAreaBusError_keepsIc s)
  | busGrant => exact keepsIc.sound h (execBusGrant_keepsIc s)
  | setMode slot p => exact keepsIc.sound h (execSetMode_keepsIc s slot p)
  | zoneSet slot p => exact keepsIc.sound h (execZoneSet_keepsIc s slot p)
  | zoneFill slot p => exact keepsIc.sound h (execZoneFill_keepsIc s slot p)
  | zonesetDefine slot p => exact keepsIc.sound h (execZonesetDefine_keepsIc s slot p)
  | routeSet slot p => exact keepsIc.sound h (execRouteSet_keepsIc s slot p)
  | announce slot p => exact keepsIc.sound h (execAnnounce_keepsIc s slot p)
  | announceCancel slot p => exact keepsIc.sound h (execAnnounceCancel_keepsIc s slot p)
  | stationSet slot p => exact execStationSet_sound h slot p
  | intercomConfig slot p => exact execIntercomConfig_sound h slot p
  | callConnect slot p => exact execCallConnect_sound h slot p
  | callRelease slot p => exact execCallRelease_sound h slot p
  | alarmConfig slot p => exact keepsIc.sound h (execAlarmConfig_keepsIc s slot p)
  | alarmTest slot p => exact keepsIc.sound h (execAlarmTest_keepsIc s slot p)
  | patternLoad slot p => exact keepsIc.sound h (execPatternLoad_keepsIc s slot p)
  | streamSet slot p => exact keepsIc.sound h (execStreamSet_keepsIc s slot p)
  | streamStart slot p => exact keepsIc.sound h (execStreamStart_keepsIc s slot p)
  | streamStop slot p => exact keepsIc.sound h (execStreamStop_keepsIc s slot p)
  | streamLevel slot p => exact keepsIc.sound h (execStreamLevel_keepsIc s slot p)
  | showLoad slot p => exact keepsIc.sound h (execShowLoad_keepsIc s slot p)
  | showGo slot => exact keepsIc.sound h (execShowGo_keepsIc s slot)
  | showHold slot => exact keepsIc.sound h (execShowHold_keepsIc s slot)
  | showResume slot => exact keepsIc.sound h (execShowResume_keepsIc s slot)
  | showStop slot p => exact keepsIc.sound h (execShowStop_keepsIc s slot p)
  | auTeardown => exact keepsIc.sound h (execAuTeardown_keepsIc s)
  | isTeardown => exact execIsTeardown_sound h
  | suTeardown => exact keepsIc.sound h (execSuTeardown_keepsIc s)
  | jobReset u => exact execJobReset_sound h u
  | mixPeriodStart => exact keepsIc.sound h (execMixPeriodStart_keepsIc s)
  | claimRequest u => exact keepsIc.sound h (execClaimRequest_keepsIc s u)
  | releaseRequest u => exact keepsIc.sound h (execReleaseRequest_keepsIc s u)
  | heldPeriodDelivery src => exact keepsIc.sound h (execHeldPeriodDelivery_keepsIc s src)
  | streamPosting => exact keepsIc.sound h (execStreamPosting_keepsIc s)
  | conversationPosting => exact keepsIc.sound h (execConversationPosting_keepsIc s)
  | pageChannelPosting => exact keepsIc.sound h (execPageChannelPosting_keepsIc s)
  | silencedPosting => exact keepsIc.sound h (execSilencedPosting_keepsIc s)
  | modePosting => exact keepsIc.sound h (execModePosting_keepsIc s)
  | lineStatusReport p => exact keepsIc.sound h (execLineStatusReport_keepsIc s p)
  | ampPassLoss p => exact keepsIc.sound h (execAmpPassLoss_keepsIc s p)
  | releaseNotice => exact keepsIc.sound h (execReleaseNotice_keepsIc s)
  | eligibilityExamination => exact keepsIc.sound h (execEligibilityExamination_keepsIc s)
  | auPeriodStart => exact keepsIc.sound h (execAuPeriodStart_keepsIc s)
  | entryExpiry => exact keepsIc.sound h (execEntryExpiry_keepsIc s)
  | clipEnd p => exact keepsIc.sound h (execClipEnd_keepsIc s p)
  | playerChimeEnd p => exact keepsIc.sound h (execPlayerChimeEnd_keepsIc s p)
  | clipFetchComplete r => exact keepsIc.sound h (execClipFetchComplete_keepsIc s r)
  | preemption => exact keepsIc.sound h (execPreemption_keepsIc s)
  | call st target => exact execCall_sound h st target
  | answer st => exact execAnswer_sound h st
  | clear st => exact execClear_sound h st
  | groupJoin st group => exact execGroupJoin_sound h st group
  | page st set emergency => exact execPage_sound h st set emergency
  | talkDown st => exact execTalkDown_sound h st
  | talkUp st => exact execTalkUp_sound h st
  | undefinedStationEvent st code => exact execUndefinedStationEvent_sound h st code
  | isPeriodStart first => exact execIsPeriodStart_sound h first
  | ringTimeout st => exact execRingTimeout_sound h st
  | waitTimeout st => exact execWaitTimeout_sound h st
  | pageLimitExpiry c => exact execPageLimitExpiry_sound h c
  | pageChimeEnd c => exact execPageChimeEnd_sound h c
  | portCondition p => exact execPortCondition_sound h p
  | panelFrameArrival p => exact keepsIc.sound h (execPanelFrameArrival_keepsIc s p)
  | panelPassChange p => exact keepsIc.sound h (execPanelPassChange_keepsIc s p)
  | alert => exact keepsIc.sound h (takeIfConfirmed_keepsIc s .alert)
  | general => exact keepsIc.sound h (takeIfConfirmed_keepsIc s .general)
  | abandon => exact keepsIc.sound h (takeIfConfirmed_keepsIc s .abandon)
  | silence => exact keepsIc.sound h (takeIfConfirmed_keepsIc s .silence)
  | resound => exact keepsIc.sound h (takeIfConfirmed_keepsIc s .resound)
  | standDown => exact keepsIc.sound h (takeIfConfirmed_keepsIc s .standDown)
  | mauPeriodStart => exact keepsIc.sound h (execMauPeriodStart_keepsIc s)
  | alarmTestEnd => exact keepsIc.sound h (execAlarmTestEnd_keepsIc s)
  | patternListComplete r => exact keepsIc.sound h (execPatternListComplete_keepsIc s r)
  | stepEnd g => exact execStepEnd_sound h g
  | suPeriodStart => exact keepsIc.sound h (execSuPeriodStart_keepsIc s)
  | fadeEnd c => exact keepsIc.sound h (execFadeEnd_keepsIc s c)
  | blockEnd c => exact keepsIc.sound h (execBlockEnd_keepsIc s c)
  | probeComplete r => exact keepsIc.sound h (execProbeComplete_keepsIc s r)
  | blockFetchComplete r => exact keepsIc.sound h (execBlockFetchComplete_keepsIc s r)
  | descriptorWriteComplete busError => exact keepsIc.sound h (execDescriptorWriteComplete_keepsIc s busError)
  | cueFire => exact keepsIc.sound h (execCueFire_keepsIc s)
  | cueListReadComplete r => exact keepsIc.sound h (execCueListReadComplete_keepsIc s r)
  | alarmHold => exact keepsIc.sound h (execAlarmHold_keepsIc s)
  | signalPresent p => exact keepsIc.sound h (execSignalPresent_keepsIc s p)
  | signalLost p => exact keepsIc.sound h (execSignalLost_keepsIc s p)
  | frameMissing p => exact keepsIc.sound h (execFrameMissing_keepsIc s p)
  | stationFrame p f => exact keepsIc.sound h (execStationFrame_keepsIc s p f)
  | panelFrame p f => exact keepsIc.sound h (execPanelFrame_keepsIc s p f)
  | backChannelFrame p f => exact keepsIc.sound h (execBackChannelFrame_keepsIc s p f)
  | stationTransmit p => exact keepsIc.sound h (execStationTransmit_keepsIc s p)
  | panelTransmit p => exact keepsIc.sound h (execPanelTransmit_keepsIc s p)
  | amplifierTransmit p => exact keepsIc.sound h (execAmplifierTransmit_keepsIc s p)
  | claimAnswer u => exact execClaimAnswer_sound h u
  | referenceWord st => exact execReferenceWord_sound h st

/-- Settles O58, by the rules of every command; with no command waiting XU's period start leaves IS's record. -/
theorem stepsKeepOneConversationStructure : Obligations.StepsKeepOneConversationStructure := by
  intro s t sound answer
  rw [step] at answer
  split at answer
  case h_1 => exact keepsIc.sound sound (xuPeriodStart_keepsIc s) t answer
  case h_2 c rest _ => exact exec_sound (s := { s with pending := rest }) sound c t answer

end Sys2Proof.Machine

/-! PROOFS. The statements of paging and emergency voice (Chapter 5): ZM's answers to the claims of IS and MAU. -/

namespace Sys2Proof.Machine

/-! ## ZM's answer to a page (R101, R102) -/

/-- `s` with ZM's answer to IS taken, and nothing done with it. -/
def State.pageAnswerTaken (s : State) : State :=
  { s with ic := { s.ic with awaiting := none }, net := { s.net with zmToIs := none } }

/-- The first phase of a page with or without a chime (R102). -/
theorem PagePhase.eq_ite {phase : PagePhase} {chime : Bool} (first : phase = .chime ↔ chime = true) :
    phase = if chime then .chime else .opened := by
  cases phase with
  | chime => rw [if_pos (first.mp rfl)]
  | opened => rw [if_neg fun rings => PagePhase.noConfusion (first.mpr rings)]

section
variable {s : State} {w : PageWait}

/-- An IDLE station whose page is admitted: neither IDLE nor PAGING is a standing that ZM is told of (R92), so the posting of
the channel is the one message. -/
theorem State.admitPage_eq (idle : s.stationIdle w.station) (m : ZoneMask) :
    s.admitPage w m =
      { (s.standingSet w.station (.paging w.channel)).isSends
          [.pageChannel w.channel (some ⟨w.station, (s.pageAdmitted w m).phase⟩)] with
        ic :=
          { (s.standingSet w.station (.paging w.channel)).ic with
            channels := s.ic.channels.set w.channel (some (s.pageAdmitted w m)) } } := by
  have apart : (s.modIc fun i =>
      { i with channels := i.channels.set w.channel (some (s.pageAdmitted w m)) }).apart w.station := idle.apart
  exact congrArg (·.sendZm .is (.pageChannel w.channel (some ⟨w.station, (s.pageAdmitted w m).phase⟩)))
    (State.setStanding_of_same (v := .paging w.channel) apart)

theorem State.pageAnswer_of_denied (idle : s.stationIdle w.station) :
    s.pageAnswer w 0 = s.pageAnswerTaken.standingSet w.station (.idle .busyDenied) := by
  unfold State.pageAnswer
  rw [if_pos rfl]
  exact State.deny_eq (s := s.pageAnswerTaken) idle

theorem State.pageAnswer_of_admitted {m : ZoneMask} (admitted : m ≠ 0) :
    s.pageAnswer w m = s.pageAnswerTaken.admitPage w m := if_neg admitted

theorem exec_claimAnswer_is_settles {m : ZoneMask} (waits : s.ic.awaiting = some w) (answer : s.net.zmToIs = some m) :
    ∃ t, exec (.claimAnswer .is) s = .next t ∧ (s.pageAnswer w m).settles t := by
  have run : exec (.claimAnswer .is) s = icAnswer s := rfl
  have answer : s.net.answer .is = some m := answer
  simp only [run, icAnswer, waits, answer]
  exact settle_settles s _

end

/-! ## ZM's answer to an ALARM claim (R127, R131) -/

section
variable {s : State} {a : MauAwait} {m : ZoneMask}

/-- `s` with ZM's answer to MAU taken, and nothing done with it. -/
def State.alarmAnswerTaken (s : State) : State :=
  { s with mau := { s.mau with awaiting := none }, net := { s.net with zmToMau := none } }

theorem exec_claimAnswer_mau_settles (waits : s.mau.awaiting = some a) (answer : s.net.zmToMau = some m) :
    ∃ t, exec (.claimAnswer .mau) s = .next t ∧ (s.mauAnswered a m).settles t := by
  have run : exec (.claimAnswer .mau) s = mauAnswer s := rfl
  have answer : s.net.answer .mau = some m := answer
  simp only [run, mauAnswer, waits, answer]
  exact settle_settles s _

theorem State.mauAnswered_stageOnly : s.mauAnswered .stageOnly m = s.alarmAnswerTaken := rfl

/-- The zones that the ended test held and the stage was not admitted in are released (R127). -/
theorem State.mauAnswered_stageRelease (k : ZoneMask) :
    s.mauAnswered (.stageRelease k) m =
      { s.alarmAnswerTaken with
        net :=
          { s.alarmAnswerTaken.net with mauToZm := s.net.mauToZm ++ [.release (.alarm .stage) (k &&& ~~~m)] } } := rfl

/-- A test that starts holds the zones admitted (R131). -/
theorem State.mauAnswered_testStart {x : AlarmTest} (test : s.mau.test = some x) :
    s.mauAnswered .testStart m =
      { s.alarmAnswerTaken with mau := { s.alarmAnswerTaken.mau with test := some { x with mask := m } } } := by
  have starts : s.mauAnswered .testStart m =
      { s.alarmAnswerTaken with
        mau := { s.alarmAnswerTaken.mau with test := s.mau.test.map fun x => { x with mask := m } } } := rfl
  rw [starts, test, Option.map_some]

end

/-- Settles O46: what either unit does with its answer, case by case. -/
theorem answersAdmitPagesAndTests : Obligations.AnswersAdmitPagesAndTests := by
  intro s m
  constructor
  · rintro w _ phase waits answer rfl first
    obtain rfl := PagePhase.eq_ite first
    obtain ⟨t, run, settles⟩ := exec_claimAnswer_is_settles waits answer
    constructor
    · rintro rfl idle
      exact ⟨t, run, State.pageAnswer_of_denied idle ▸ settles⟩
    · intro admitted idle
      rw [State.pageAnswer_of_admitted admitted, State.admitPage_eq (s := s.pageAnswerTaken) idle] at settles
      exact ⟨t, run, settles⟩
  · rintro a _ waits answer rfl
    obtain ⟨t, run, settles⟩ := exec_claimAnswer_mau_settles waits answer
    refine ⟨?_, ?_, ?_⟩
    · rintro rfl
      rw [State.mauAnswered_stageOnly] at settles
      exact ⟨t, run, settles⟩
    · rintro k rfl
      rw [State.mauAnswered_stageRelease k] at settles
      exact ⟨t, run, settles⟩
    · rintro x rfl test
      rw [State.mauAnswered_testStart test] at settles
      exact ⟨t, run, settles⟩

end Sys2Proof.Machine

/-! PROOFS. The statements of alarm patterns and tone synthesis (Chapter 7): PATTERN_LOAD and the completion of its read. -/

namespace Sys2Proof

/-! ## Fields read back (R208) -/

/-- The bytes of a number, read as one (R208). -/
theorem leNat_take_of_bytes {k v : Nat} {l : List Byte} (small : v < 256 ^ k)
    (bytes : ∀ i < k, l[i]? = some (BitVec.ofNat 8 (v / 256 ^ i))) : leNat (l.take k) = v := by
  induction k generalizing v l with
  | zero =>
    have zero : v = 0 := by simpa using small
    rw [List.take_zero, leNat, zero]
  | succ k ih =>
    cases l with
    | nil => exact nomatch bytes 0 k.succ_pos
    | cons b bs =>
      have low : b = BitVec.ofNat 8 v := by simpa using bytes 0 k.succ_pos
      have high : leNat (bs.take k) = v / 256 := by
        refine ih (Nat.div_lt_of_lt_mul (by rwa [← Nat.pow_succ'])) fun i hi => ?_
        have byte := bytes (i + 1) (Nat.succ_lt_succ hi)
        rwa [List.getElem?_cons_succ, Nat.pow_succ', ← Nat.div_div_eq_div_mul] at byte
      rw [List.take_succ_cons, leNat, high, low, BitVec.toNat_ofNat]
      exact Nat.mod_add_div v 256

/-- A table that bears a field gives its value there. -/
theorem fieldAt_of_bears {n off size v : Nat} {fields : List (Nat × Nat × Nat)} {b : Table n Byte}
    (holds : Machine.bears fields b.toList) (field : (off, size, v) ∈ fields) : fieldAt b off size = v := by
  obtain ⟨small, bytes⟩ := holds _ field
  exact leNat_take_of_bytes small fun i hi => List.getElem?_drop.trans (bytes i hi)

/-! ## Pattern lists as read (R210) -/

/-- The pattern list that a list of fields stands for (R210). -/
theorem decodePatternList_of_bears {b : Table 272 Byte} {count repeats : Nat}
    {kind wave level freq duration : Nat → Nat}
    (holds : Machine.bears
      ([(0, 1, count), (1, 1, repeats)] ++ (List.range 16).flatMap fun i =>
        [(16 + 16 * i, 1, kind i), (17 + 16 * i, 1, wave i), (18 + 16 * i, 2, level i), (20 + 16 * i, 4, freq i),
          (24 + 16 * i, 2, duration i)])
      b.toList) :
    decodePatternList b =
      ⟨count, repeats, (List.range 16).map fun i => ⟨kind i, wave i, level i, freq i, duration i⟩⟩ := by
  have count_at : fieldAt b 0 1 = count := fieldAt_of_bears holds (by simp)
  have repeats_at : fieldAt b 1 1 = repeats := fieldAt_of_bears holds (by simp)
  have entry (i : Nat) (hi : i ∈ List.range 16) (f : Nat × Nat × Nat)
      (field : f ∈ [(16 + 16 * i, 1, kind i), (17 + 16 * i, 1, wave i), (18 + 16 * i, 2, level i),
        (20 + 16 * i, 4, freq i), (24 + 16 * i, 2, duration i)]) : fieldAt b f.1 f.2.1 = f.2.2 :=
    fieldAt_of_bears holds (List.mem_append_right _ (List.mem_flatMap.mpr ⟨i, hi, field⟩))
  rw [decodePatternList, count_at, repeats_at, RawPattern.mk.injEq]
  refine ⟨rfl, rfl, List.map_congr_left fun i hi => ?_⟩
  have fields := entry i hi
  simp only [List.forall_mem_cons] at fields
  obtain ⟨kind_at, wave_at, level_at, freq_at, duration_at, _⟩ := fields
  have offset (k : Nat) : 16 + 16 * i + k = 16 + k + 16 * i := Nat.add_right_comm ..
  simp only [offset, kind_at, wave_at, level_at, freq_at, duration_at]

end Sys2Proof

namespace Sys2Proof.Machine

/-! ## Patterns as stored (R143) -/

/-- A step with its codes read and its quantities clamped (R143). -/
def stepOf (r : RawStep) : Step :=
  ⟨if r.kind = 0 then .on else .gap, if r.wave = 0 then .square else .triangle, max 500 (min 80000 r.freq),
    min 32768 r.level, max 1 (min 10000 r.duration)⟩

theorem storedStep_eq (r : RawStep) : storedStep r = if 1 < r.kind ∨ 1 < r.wave then none else some (stepOf r) := by
  rw [storedStep, clamp_eq _ _ _ (by decide), clampGain_eq, clamp_eq _ _ _ (by decide)]
  rfl

theorem mapM_storedStep_of_undefined {l : List RawStep} (undefined : ∃ r ∈ l, 1 < r.kind ∨ 1 < r.wave) :
    l.mapM storedStep = none := by
  induction l with
  | nil => simp at undefined
  | cons r rest ih =>
    rw [List.mapM_cons, storedStep_eq]
    split
    case isTrue => rfl
    case isFalse defined =>
      rw [ih (by simpa [defined] using undefined)]
      rfl

theorem mapM_storedStep_of_defined {l : List RawStep} (defined : ∀ r ∈ l, r.kind ≤ 1 ∧ r.wave ≤ 1) :
    l.mapM storedStep = some (l.map stepOf) := by
  induction l with
  | nil => rfl
  | cons r rest ih =>
    obtain ⟨⟨kind, wave⟩, others⟩ := List.forall_mem_cons.mp defined
    rw [List.mapM_cons, storedStep_eq, if_neg (by omega), ih others]
    rfl

section
variable {count repeats : Nat} {entry : Nat → RawStep}

/-- The entries of a list that are in use (R143). -/
theorem take_entries (few : count ≤ 16) :
    ((List.range 16).map entry).take count = (List.range count).map entry := by
  rw [← List.map_take, List.take_range, Nat.min_eq_left few]

theorem storedPattern_of_bad
    (bad : count = 0 ∨ 16 < count ∨ ∃ i < count, 1 < (entry i).kind ∨ 1 < (entry i).wave) :
    storedPattern ⟨count, repeats, (List.range 16).map entry⟩ = none := by
  by_cases miscounted : count = 0 ∨ 16 < count
  · exact if_pos miscounted
  · obtain ⟨i, hi, undefined⟩ : ∃ i < count, 1 < (entry i).kind ∨ 1 < (entry i).wave := by
      simpa [← or_assoc, miscounted] using bad
    have among : ∃ x ∈ (List.range count).map entry, 1 < x.kind ∨ 1 < x.wave :=
      ⟨entry i, List.mem_map_of_mem (List.mem_range.mpr hi), undefined⟩
    simp only [storedPattern, if_neg miscounted, take_entries (by omega : count ≤ 16),
      mapM_storedStep_of_undefined among, Option.map_none]

theorem storedPattern_of_good (filled : 1 ≤ count) (few : count ≤ 16)
    (defined : ∀ i < count, (entry i).kind ≤ 1 ∧ (entry i).wave ≤ 1) :
    storedPattern ⟨count, repeats, (List.range 16).map entry⟩ =
      some ⟨repeats, (List.range count).map fun i => stepOf (entry i)⟩ := by
  have all : ∀ x ∈ (List.range count).map entry, x.kind ≤ 1 ∧ x.wave ≤ 1 :=
    List.forall_mem_map.mpr fun i hi => defined i (List.mem_range.mp hi)
  simp only [storedPattern, if_neg (by omega : ¬(count = 0 ∨ 16 < count)), take_entries few,
    mapM_storedStep_of_defined all, Option.map_some, List.map_map]
  rfl

end

/-! ## Pattern slots in use (R142) -/

/-- A chime sounds from slot 3 at a player or on a page channel (R142). -/
theorem State.chiming_iff (s : State) :
    s.chiming = true ↔
      (∃ p, (s.au.players.get p).phase = .chime) ∨ ∃ c p, s.ic.channels.get c = some p ∧ p.phase = .chime := by
  have channel (o : Option PageRec) :
      (match o with | some p => decide (p.phase = .chime) | none => false) = true ↔ ∃ p, o = some p ∧ p.phase = .chime := by
    cases o <;> simp
  simp only [State.chiming, Bool.or_eq_true, List.any_eq_true, List.mem_finRange, true_and, decide_eq_true_eq]
  exact or_congr Iff.rfl (exists_congr fun c => channel _)

theorem Mau.inForce_iff (m : Mau) : m.inForce = true ↔ m.stage ≠ .idle ∨ m.test ≠ none := by
  simp [Mau.inForce, Option.isSome_iff_ne_none]

theorem State.patternInUse_iff (s : State) (i : PatIx) :
    s.patternInUse i = true ↔
      if i = 3 then
        (∃ p, (s.au.players.get p).phase = .chime) ∨ ∃ c p, s.ic.channels.get c = some p ∧ p.phase = .chime
      else s.mau.stage ≠ .idle ∨ s.mau.test ≠ none := by
  unfold State.patternInUse
  split
  · exact s.chiming_iff
  · exact s.mau.inForce_iff

/-! ## PATTERN_LOAD (R142) -/

theorem Mau.freeToAct_of_none {m : Mau} (free : m.awaiting = none) : m.freeToAct = true := by
  rw [Mau.freeToAct, free, Option.isNone_none]

section
variable {s : State} {slot : SlotIx} {p : PatternLoadParams} {i : PatIx}

theorem takePatternLoad_of_slot_out (out : 3 < p.slot.toNat) : takePatternLoad slot p s = s.refuse slot .format 1 := by
  rw [takePatternLoad, index_none (Nat.not_lt.mpr out)]

theorem takePatternLoad_of_unaligned (named : i.val = p.slot.toNat) (off : p.list.toNat % 64 ≠ 0) :
    takePatternLoad slot p s = s.refuse slot .align 2 := by
  simp [takePatternLoad, index_some i named, aligned64, off]

/-- What becomes of a PATTERN_LOAD that names a slot and an aligned list. -/
theorem takePatternLoad_of_named (named : i.val = p.slot.toNat) (aligned : p.list.toNat % 64 = 0) :
    takePatternLoad slot p s =
      if s.patternInUse i then s.refuse slot .state 0
      else
        { s with
          mau :=
            { s.mau with
              loads := s.mau.loads ++ [⟨s.mau.nextLoad, some slot, i, p.list⟩]
              nextLoad := s.mau.nextLoad + 1 }
          bus :=
            { s.bus with
              waiting := s.bus.waiting ++ [⟨.patternList s.mau.nextLoad, p.list, 272, [], true⟩] } } := by
  have plain : (!aligned64 p.list) = false := by simp [aligned64, aligned]
  rw [takePatternLoad, index_some i named]
  simp only [plain]
  rfl

theorem exec_patternLoad_answers {u : State} {c : Completion} (dispatched : s.xu.dispatch = some (slot, .patternLoad p))
    (free : s.mau.awaiting = none) (made : takePatternLoad slot p s = u.handOver slot c) :
    ∃ t, exec (.patternLoad slot p) s = .next t ∧ u.answers t slot c :=
  request_answers dispatched (Mau.freeToAct_of_none free) made

theorem exec_patternLoad_takes {u : State} (dispatched : s.xu.dispatch = some (slot, .patternLoad p))
    (free : s.mau.awaiting = none) (made : takePatternLoad slot p s = u) :
    ∃ t, exec (.patternLoad slot p) s = .next t ∧ u.takes t slot :=
  request_takes dispatched (Mau.freeToAct_of_none free) made

end

/-! ## The completion of a list read (R143, R144) -/

/-- A job's completion is handed over, or dropped where the job has lost its slot (R144). -/
theorem State.handOver?_eq (s : State) (o : Option SlotIx) (c : Completion) :
    s.handOver? o c = match o with | some k => s.completed k c | none => s := by
  cases o with
  | none => rfl
  | some k => exact handOver_eq s k c

section
variable {s : State} {l : PatternLoad}

/-- `s` with the load's record gone. -/
def State.loadDropped (s : State) (l : PatternLoad) : State :=
  { s with mau := { s.mau with loads := s.mau.loads.filter fun x => decide (x.id ≠ l.id) } }

theorem State.finishLoad_of_busError :
    s.finishLoad l .busError = (s.loadDropped l).handOver? l.origin (.refused .bus 2) := rfl

theorem State.finishLoad_of_bad {b : Table 272 Byte} (bad : storedPattern (decodePatternList b) = none) :
    s.finishLoad l (.data b) = (s.loadDropped l).handOver? l.origin (.refused .format 2) := by
  simp only [State.finishLoad, bad]
  rfl

/-- A load whose list holds the pattern `p`. -/
theorem State.finishLoad_of_stored {b : Table 272 Byte} {p : Pattern}
    (stored : storedPattern (decodePatternList b) = some p) :
    s.finishLoad l (.data b) =
      if s.patternInUse l.slot then (s.loadDropped l).handOver? l.origin (.refused .state 0)
      else
        ({ s.loadDropped l with mau := { (s.loadDropped l).mau with store := s.mau.store.set l.slot p } } :
          State).handOver? l.origin (.done .ok (.pattern p.steps.length p.passLength)) := by
  simp only [State.finishLoad, stored]
  rfl

theorem exec_patternListComplete_settles {r : BusRead 272} {u : State} (free : s.mau.awaiting = none)
    (reads : s.inProgress = some (.patternList l.id))
    (found : (s.mau.loads.find? fun x => decide (x.id = l.id)) = some l) (made : s.portFreed.finishLoad l r = u) :
    ∃ t, exec (.patternListComplete r) s = .next t ∧ u.settles t := by
  have run : exec (.patternListComplete r) s = execPatternListComplete r s := rfl
  simp only [run, execPatternListComplete, reads]
  refine event_settles (Mau.freeToAct_of_none free) ?_
  simp only [found, made]

end

/-- Settles O26: each way the request goes is a branch of `takePatternLoad`, and each way its load ends one of
`State.finishLoad`, on the pattern that the list's fields give. -/
theorem patternLoadReadsAndStores : Obligations.PatternLoadReadsAndStores := by
  intro s used free hused
  have busy (i : PatIx) : used i ↔ s.patternInUse i = true := (hused i).trans (s.patternInUse_iff i).symm
  refine ⟨?request, ?completion⟩
  case request =>
    intro slot p dispatched
    refine ⟨fun out => ?_, fun i named => ⟨fun off => ?_, fun aligned taken => ?_, fun aligned idle => ?_⟩⟩
    · exact exec_patternLoad_answers dispatched free (takePatternLoad_of_slot_out out)
    · exact exec_patternLoad_answers dispatched free (takePatternLoad_of_unaligned named off)
    · exact exec_patternLoad_answers dispatched free
        ((takePatternLoad_of_named named aligned).trans (if_pos ((busy i).mp taken)))
    · exact exec_patternLoad_takes dispatched free
        ((takePatternLoad_of_named named aligned).trans (if_neg (mt (busy i).mpr idle)))
  case completion =>
    rintro l _ ends reads found hends rfl
    have hends (v : State) (c : Completion) : ends v c = v.handOver? l.origin c :=
      (hends v c).trans (v.handOver?_eq l.origin c).symm
    simp only [hends]
    refine ⟨exec_patternListComplete_settles free reads found State.finishLoad_of_busError, ?_⟩
    rintro b count repeats kind wave level freq duration _ holds rfl
    have decoded := decodePatternList_of_bears holds
    refine ⟨fun bad => ?_, fun filled few defined => ?_⟩
    · have none_stored := (congrArg storedPattern decoded).trans (storedPattern_of_bad bad)
      exact exec_patternListComplete_settles free reads found (State.finishLoad_of_bad none_stored)
    · have ended := State.finishLoad_of_stored (s := s.portFreed) (l := l)
        ((congrArg storedPattern decoded).trans (storedPattern_of_good filled few defined))
      refine ⟨fun taken => ?_, fun idle => ?_⟩
      · exact exec_patternListComplete_settles free reads found (ended.trans (if_pos ((busy l.slot).mp taken)))
      · rw [List.length_map, List.length_range] at ended
        exact exec_patternListComplete_settles free reads found (ended.trans (if_neg (mt (busy l.slot).mpr idle)))

end Sys2Proof.Machine

/-! PROOFS. The statements of show playback (Chapter 8): the stream and show requests, cue lists, cue actions, holds and stops,
SU's period start and the completions of a channel's traffic. -/

namespace Sys2Proof.Machine

/-! ## What an operation on a channel does to the part -/

/-- What an operation on a stream channel makes of it: the channel's record after it, what SU sends ZM and delivers, and the
transfers it gives the port. -/
structure ChanTurn where
  after : Chan
  sends : List ZmMsg
  out : List (Source × Period)
  transfers : List Transfer

/-- One operation and then another. -/
def ChanTurn.followedBy (v w : ChanTurn) : ChanTurn :=
  ⟨w.after, v.sends ++ w.sends, v.out ++ w.out, v.transfers ++ w.transfers⟩

/-- `s` with channel `c` as an operation leaves it. -/
def State.chanTurned (s : State) (c : Stream) (w : ChanTurn) : State :=
  { s with
    su := { s.su with channels := s.su.channels.set c w.after }
    net := { s.net with suToZm := s.net.suToZm ++ w.sends, deliveries := s.net.deliveries ++ w.out }
    bus := { s.bus with waiting := s.bus.waiting ++ w.transfers } }

section
variable (s : State) (c : Stream)

@[simp] theorem State.chanTurned_chan (w : ChanTurn) : (s.chanTurned c w).chan c = w.after :=
  s.su.channels.get_set_self c w.after

theorem State.chanTurned_self : s.chanTurned c ⟨s.chan c, [], [], []⟩ = s := by
  simp [State.chanTurned, State.chan, Table.set_get_self]

theorem State.chanTurned_chanTurned (v w : ChanTurn) : (s.chanTurned c v).chanTurned c w = s.chanTurned c (v.followedBy w) := by
  simp [State.chanTurned, ChanTurn.followedBy]

@[simp] theorem runningPost_self (k : StreamState) : runningPost c k k = [] := if_pos rfl

/-- ZM is told of a channel that leaves RUNNING (R33, R154). -/
theorem runningPost_of_leaving {old new : StreamState} (leaves : new = .running → old = .running) :
    runningPost c old new = if old = .running ∧ new ≠ .running then [.streamRunning c false] else [] := by
  by_cases h : new = .running
  · simp [runningPost, h, leaves h]
  · by_cases was : old = .running <;> simp [runningPost, h, was]

/-- ZM is told of a channel that comes to RUNNING (R33, R154). -/
theorem runningPost_of_entering {old new : StreamState} (enters : old = .running → new = .running) :
    runningPost c old new = if new = .running ∧ old ≠ .running then [.streamRunning c true] else [] := by
  by_cases h : old = .running
  · simp [runningPost, h, enters h]
  · by_cases is : new = .running <;> simp [runningPost, h, is]

theorem State.setChan_eq_turned (r : Chan) :
    s.setChan c r = s.chanTurned c ⟨r, runningPost c (s.chan c).state r.state, [], []⟩ := by
  simp [State.setChan_eq, State.chanTurned]

theorem State.issue_eq_turned (ts : List Transfer) : s.issue ts = s.chanTurned c ⟨s.chan c, [], [], ts⟩ := by
  simp [State.chanTurned, State.chan, Table.set_get_self, State.issue, State.modBus]

theorem State.deliver_eq_turned (src : Source) (p : Period) :
    s.deliver src p = s.chanTurned c ⟨s.chan c, [], [(src, p)], []⟩ := by
  simp [State.chanTurned, State.chan, Table.set_get_self, State.deliver, State.modNet]

theorem State.writeDescriptor_eq_turned (i : Nat) (v : Byte) :
    s.writeDescriptor c i v = s.chanTurned c ⟨s.chan c, [], [], (s.chan c).marksDescriptor c i v⟩ := by
  unfold State.writeDescriptor Chan.marksDescriptor
  cases (s.chan c).ring with
  | none => exact (s.chanTurned_self c).symm
  | some g => exact s.issue_eq_turned c _

/-! ## Stops, levels and starts (R163 to R167) -/

theorem Chan.after_eq_following (r : Chan) (i : Nat) : r.after i = r.following i := rfl

/-- The write that marks the block of a channel that stops (R163). -/
def Chan.consumes (r : Chan) (c : Stream) : List Transfer :=
  match r.playing with
  | some b => r.marksDescriptor c b.index 0xF8
  | none => []

def Chan.stopTurn (r : Chan) (c : Stream) : ChanTurn :=
  ⟨r.stopped, if r.state = .running then [.streamRunning c false] else [], [], r.consumes c⟩

theorem State.stopChannel_eq_turned : s.stopChannel c = s.chanTurned c ((s.chan c).stopTurn c) := by
  have post : runningPost c (s.chan c).state .stopped =
      if (s.chan c).state = .running then [.streamRunning c false] else [] := by
    simp [runningPost_of_leaving]
  cases h : (s.chan c).playing with
  | none =>
    simp only [State.stopChannel, h, State.setChan_eq_turned, Chan.stopTurn, Chan.consumes, Chan.stopped, Chan.bare, post]
  | some b =>
    simp only [State.stopChannel, h, State.writeDescriptor_eq_turned, State.setChan_eq_turned, State.chanTurned_chanTurned,
      State.chanTurned_chan, ChanTurn.followedBy, List.nil_append, List.append_nil, Chan.stopTurn, Chan.consumes,
      Chan.stopped, Chan.bare, post]
    rfl

/-- A fade to silence that ends at its event (R46). -/
theorem Fader.fade_zero_of_still {f : Fader} {n : Nat} (still : min 60000 n = 0 ∨ f.current = 0) :
    f.fade 0 n = ⟨0, 0, 0⟩ :=
  Fader.fade_of_still still

/-- A fade to silence that takes time (R46). -/
theorem Fader.fade_zero_of_moving {f : Fader} {n : Nat} (moves : min 60000 n ≠ 0) (sounds : f.current ≠ 0) :
    f.fade 0 n = ⟨f.current, 0, (f.current + min 60000 n - 1) / min 60000 n⟩ ∧ (f.fade 0 n).step ≠ 0 := by
  have fades : f.fade 0 n = ⟨f.current, 0, (f.current + min 60000 n - 1) / min 60000 n⟩ := by
    rw [Fader.fade_of_moving moves sounds, Nat.ceilDiv_eq_add_pred_div, Nat.min_zero, Nat.zero_sub, Nat.zero_add,
      Nat.sub_zero]
  refine ⟨fades, ?_⟩
  rw [fades]
  exact (Nat.div_pos (by omega) (Nat.pos_of_ne_zero moves)).ne'

/-- A channel told to stop by a fade of `length` periods, before that fade has ended (R163). -/
def Chan.stopping (r : Chan) (length : Nat) : Chan := { r with stopPending := true, fader := r.fader.fade 0 length }

theorem State.stopWithFade_of_moving {length : Nat} (moves : min 60000 length ≠ 0) (sounds : (s.chan c).fader.current ≠ 0) :
    s.stopWithFade c length = s.chanTurned c ⟨(s.chan c).stopping length, [], [], []⟩ := by
  obtain ⟨-, step⟩ := Fader.fade_zero_of_moving moves sounds
  simp [State.stopWithFade, step, State.setChan_eq_turned, Chan.stopping]

theorem State.stopWithFade_of_still {length : Nat} (still : min 60000 length = 0 ∨ (s.chan c).fader.current = 0) :
    s.stopWithFade c length = s.chanTurned c (({ s.chan c with fader := ⟨0, 0, 0⟩ } : Chan).stopTurn c) := by
  simp [State.stopWithFade, Fader.fade_zero_of_still still, State.setChan_eq_turned, State.stopChannel_eq_turned,
    State.chanTurned_chanTurned, ChanTurn.followedBy, Chan.stopTurn, Chan.stopped, Chan.consumes, Chan.marksDescriptor,
    Chan.following]

theorem State.levelChannel_eq_turned (target length : Nat) :
    s.levelChannel c target length =
      s.chanTurned c
        ⟨{ s.chan c with stopPending := false, fader := (s.chan c).fader.fade target length }, [], [], []⟩ := by
  simp [State.levelChannel, State.setChan_eq_turned]

/-- A channel as it starts at descriptor `i`, priming (R165). -/
def Chan.started (r : Chan) (i target length : Nat) : Chan :=
  { r with
    state := .running, cursor := i, playing := none, next := none, marks := [], probe := some i, stopPending := false
    startNumber := r.startNumber + 1, fader := r.fader.fade target length }

theorem State.startChannel_eq_turned {g : Ring} {i target length : Nat} (ring : (s.chan c).ring = some g)
    (idle : (s.chan c).state = .stopped ∨ (s.chan c).state = .fault) :
    s.startChannel c i target length =
      s.chanTurned c
        ⟨(s.chan c).started i target length, [.streamRunning c true], [],
          [⟨.probe c i ((s.chan c).startNumber + 1), g.base + BitVec.ofNat 64 (16 * i), 16, [], true⟩]⟩ := by
  have quiet : (s.chan c).state ≠ .running := by rcases idle with h | h <;> rw [h] <;> decide
  have post : runningPost c (s.chan c).state .running = [.streamRunning c true] := by
    simp [runningPost_of_entering, quiet]
  simp [State.startChannel, State.setChan_eq_turned, State.probe, State.fadeChannel, Chan.bare, ring,
    State.issue_eq_turned _ c, State.chanTurned_chanTurned, ChanTurn.followedBy, Chan.started, post, readOf,
    Ring.descriptor]

end

theorem suTakesRequest_of_nil {s : State} (nil : s.net.xuToSu = []) : s.suTakesRequest = true := List.isEmpty_iff.mpr nil

theorem aligned64_iff (a : Addr) : aligned64 a = true ↔ a.toNat % 64 = 0 := decide_eq_true_iff

theorem StreamState.idle_iff (v : StreamState) : v.idle = true ↔ v = .stopped ∨ v = .fault := by
  simp [StreamState.idle]

theorem StreamState.idle_of_not {v : StreamState} (moves : v ≠ .stopped) (sound : v ≠ .fault) : v.idle = false := by
  simp [StreamState.idle, moves, sound]

theorem StreamState.playing_iff (v : StreamState) : v.playing = true ↔ v = .running ∨ v = .starved := by
  simp [StreamState.playing]

end Sys2Proof.Machine

namespace Sys2Proof.Machine

/-! ## STREAM_SET (R164) -/

section
variable {s : State} {slot : SlotIx} {p : StreamSetParams} {c : Stream}

theorem takeStreamSet_of_stream_out (out : 15 < p.stream.toNat) : takeStreamSet slot p s = s.refuse slot .format 1 := by
  rw [takeStreamSet, index_none (Nat.not_lt.mpr out)]

theorem takeStreamSet_of_class_out (named : c.val = p.stream.toNat) (out : 1 < p.cls.toNat) :
    takeStreamSet slot p s = s.refuse slot .format 2 := by
  have unclassed : bedClassOf p.cls.toNat = none := by
    rw [bedClassOf, if_neg (by omega), if_neg (by omega)]
  rw [takeStreamSet, index_some c named, unclassed]

/-- What becomes of a STREAM_SET that names a channel and a class. -/
theorem takeStreamSet_of_named {k : BedClass} (named : c.val = p.stream.toNat) (classed : bedClassOf p.cls.toNat = some k) :
    takeStreamSet slot p s =
      if p.base.toNat % 64 ≠ 0 then s.refuse slot .align 3
      else if ¬((s.chan c).state = .stopped ∨ (s.chan c).state = .fault) then s.refuse slot .state 1
      else
        ((s.setChan c ((s.chan c).configured k p.base p.count.toNat)).sendZm .su (.streamClass c k)).perform slot .none := by
  rw [takeStreamSet, index_some c named, classed]
  simp only [Bool.not_eq_true', ← Bool.not_eq_true, aligned64_iff, StreamState.idle_iff, ne_eq]

theorem bedClassOf_of_le (few : p.cls.toNat ≤ 1) : ∃ k, bedClassOf p.cls.toNat = some k := by
  rcases Nat.le_one_iff_eq_zero_or_eq_one.mp few with zero | one
  · exact ⟨.background, by rw [zero]; rfl⟩
  · exact ⟨.show, by rw [one]; rfl⟩

theorem Chan.configured_of_idle {r : Chan} (idle : r.state = .stopped ∨ r.state = .fault) (k : BedClass) (base : Addr)
    (count : Nat) :
    r.configured k base count =
      { r with
        cls := k, ring := some ⟨base, max 2 (min 64 count)⟩, cursor := 0, starves := 0, lates := 0, state := .stopped } := by
  rcases idle with h | h <;> simp [Chan.configured, clamp_eq, h]

/-- A channel that plays nothing, configured, and its class posted (R164). -/
theorem State.configure_eq (idle : (s.chan c).state = .stopped ∨ (s.chan c).state = .fault) (k : BedClass) (base : Addr)
    (count : Nat) :
    (s.setChan c ((s.chan c).configured k base count)).sendZm .su (.streamClass c k) =
      { s with
        su :=
          { s.su with
            channels :=
              s.su.channels.set c
                { s.chan c with
                  cls := k, ring := some ⟨base, max 2 (min 64 count)⟩, cursor := 0, starves := 0, lates := 0
                  state := .stopped } }
        net := { s.net with suToZm := s.net.suToZm ++ [.streamClass c k] } } := by
  have post : runningPost c (s.chan c).state .stopped = [] := by rcases idle with h | h <;> rw [h] <;> rfl
  rw [Chan.configured_of_idle idle, State.setChan_eq, post, List.append_nil]
  rfl

end

/-! ## STREAM_START (R165) -/

section
variable {s : State} {slot : SlotIx} {p : StreamStartParams} {c : Stream}

theorem takeStreamStart_of_stream_out (out : 15 < p.stream.toNat) :
    takeStreamStart slot p s = s.refuse slot .format 1 := by
  rw [takeStreamStart, index_none (Nat.not_lt.mpr out)]

theorem takeStreamStart_of_unfit (named : c.val = p.stream.toNat)
    (unfit : (s.chan c).cls = .show ∨ (s.chan c).ring = none ∨ (s.chan c).state ≠ .stopped ∧ (s.chan c).state ≠ .fault) :
    takeStreamStart slot p s = s.refuse slot .state 1 := by
  rw [takeStreamStart, index_some c named]
  by_cases show_class : (s.chan c).cls = .show
  · exact if_pos show_class
  · cases ring : (s.chan c).ring with
    | none => simp [ring]
    | some g =>
      obtain ⟨moves, sound⟩ : (s.chan c).state ≠ .stopped ∧ (s.chan c).state ≠ .fault := by
        simpa [show_class, ring] using unfit
      simp [ring, StreamState.idle_of_not moves sound]

/-- What becomes of a STREAM_START of a channel that may start. -/
theorem takeStreamStart_of_fit {g : Ring} (named : c.val = p.stream.toNat) (background : (s.chan c).cls = .background)
    (ring : (s.chan c).ring = some g) (idle : (s.chan c).state = .stopped ∨ (s.chan c).state = .fault) :
    takeStreamStart slot p s =
      if g.count ≤ p.index.toNat then s.refuse slot .format 2
      else (s.startChannel c p.index.toNat p.target.toNat p.fade.toNat).perform slot .none := by
  have free := (StreamState.idle_iff _).mpr idle
  rw [takeStreamStart, index_some c named]
  simp [background, ring, free]

end

/-- A channel that starts: RUNNING posted, a probe of its first descriptor waiting (R165). -/
theorem State.startChannel_eq {s : State} {c : Stream} {g : Ring} {i target length : Nat}
    (ring : (s.chan c).ring = some g) (idle : (s.chan c).state = .stopped ∨ (s.chan c).state = .fault) :
    s.startChannel c i target length =
      { s with
        su := { s.su with channels := s.su.channels.set c ((s.chan c).started i target length) }
        net := { s.net with suToZm := s.net.suToZm ++ [.streamRunning c true] }
        bus :=
          { s.bus with
            waiting :=
              s.bus.waiting ++
                [⟨.probe c i ((s.chan c).startNumber + 1), g.base + BitVec.ofNat 64 (16 * i), 16, [], true⟩] } } := by
  rw [State.startChannel_eq_turned s c ring idle, State.chanTurned, List.append_nil]

/-- Settles O27: each way a request goes is a branch of `takeStreamSet` or `takeStreamStart`. -/
theorem streamSetAndStreamStart : Obligations.StreamSetAndStreamStart := by
  intro s slot nil
  have free := suTakesRequest_of_nil nil
  refine ⟨fun p dispatched => ⟨fun out => ?_, ?named⟩, fun p dispatched => ⟨fun out => ?_, ?start⟩⟩
  case named =>
    rintro c _ named rfl
    refine ⟨fun out => ?_, fun few off => ?_, fun few aligned moves sound => ?_, fun k classed aligned idle => ?_⟩
    · exact request_answers dispatched free (takeStreamSet_of_class_out named out)
    · obtain ⟨k, classed⟩ := bedClassOf_of_le few
      exact request_answers dispatched free ((takeStreamSet_of_named named classed).trans (if_pos off))
    · obtain ⟨k, classed⟩ := bedClassOf_of_le few
      refine request_answers dispatched free
        ((takeStreamSet_of_named named classed).trans ((if_neg (not_not.mpr aligned)).trans (if_pos ?_)))
      exact not_or.mpr ⟨moves, sound⟩
    · have classed : bedClassOf p.cls.toNat = some k := by
        rcases classed with ⟨rfl, code⟩ | ⟨rfl, code⟩ <;> rw [code] <;> rfl
      have taken := (takeStreamSet_of_named (s := s) (slot := slot) named classed).trans
        ((if_neg (not_not.mpr aligned)).trans (if_neg (not_not.mpr idle)))
      rw [State.configure_eq idle] at taken
      exact request_answers dispatched free taken
  case start =>
    rintro c _ named rfl
    refine ⟨fun unfit => ?_, fun g background ring idle => ?_⟩
    · exact request_answers dispatched free (takeStreamStart_of_unfit named unfit)
    · have taken := takeStreamStart_of_fit (s := s) (slot := slot) named background ring idle
      refine ⟨fun out => ?_, fun within => ?_⟩
      · exact request_answers dispatched free (taken.trans (if_pos out))
      · rw [State.startChannel_eq ring idle] at taken
        exact request_answers dispatched free (taken.trans (if_neg (Nat.not_le.mpr within)))
  · exact request_answers dispatched free (takeStreamSet_of_stream_out out)
  · exact request_answers dispatched free (takeStreamStart_of_stream_out out)

end Sys2Proof.Machine

namespace Sys2Proof.Machine

/-! ## STREAM_STOP and STREAM_LEVEL (R166, R167) -/

section
variable {s : State} {slot : SlotIx} {c : Stream}

theorem takeStreamStop_of_stream_out {p : StreamStopParams} (out : 15 < p.stream.toNat) :
    takeStreamStop slot p s = s.refuse slot .format 1 := by
  rw [takeStreamStop, index_none (Nat.not_lt.mpr out)]

theorem takeStreamStop_of_unfit {p : StreamStopParams} (named : c.val = p.stream.toNat)
    (unfit : (s.chan c).cls = .show ∨ (s.chan c).state = .stopped ∨ (s.chan c).state = .fault) :
    takeStreamStop slot p s = s.refuse slot .state 1 := by
  rw [takeStreamStop, index_some c named]
  by_cases show_class : (s.chan c).cls = .show
  · exact if_pos show_class
  · have idle := (StreamState.idle_iff _).mpr (unfit.resolve_left show_class)
    simp [idle]

theorem takeStreamStop_of_fit {p : StreamStopParams} (named : c.val = p.stream.toNat)
    (background : (s.chan c).cls = .background) (moves : (s.chan c).state ≠ .stopped) (sound : (s.chan c).state ≠ .fault) :
    takeStreamStop slot p s = (s.stopWithFade c p.fade.toNat).perform slot .none := by
  rw [takeStreamStop, index_some c named]
  simp [background, StreamState.idle_of_not moves sound]

theorem takeStreamLevel_of_stream_out {p : StreamLevelParams} (out : 15 < p.stream.toNat) :
    takeStreamLevel slot p s = s.refuse slot .format 1 := by
  rw [takeStreamLevel, index_none (Nat.not_lt.mpr out)]

theorem takeStreamLevel_of_named {p : StreamLevelParams} (named : c.val = p.stream.toNat) :
    takeStreamLevel slot p s =
      if (s.chan c).cls = .show then s.refuse slot .state 1
      else (s.levelChannel c p.target.toNat p.fade.toNat).perform slot .none := by
  rw [takeStreamLevel, index_some c named]

end

section
variable {s : State} {c : Stream}

/-- A channel's record alone changes. -/
theorem State.chanTurned_record (s : State) (c : Stream) (r : Chan) :
    s.chanTurned c ⟨r, [], [], []⟩ = { s with su := { s.su with channels := s.su.channels.set c r } } := by
  simp [State.chanTurned]

theorem State.levelChannel_eq (target length : Nat) :
    s.levelChannel c target length =
      { s with
        su :=
          { s.su with
            channels :=
              s.su.channels.set c
                { s.chan c with stopPending := false, fader := (s.chan c).fader.fade target length } } } := by
  rw [State.levelChannel_eq_turned, State.chanTurned_record]

/-- A stop whose fade takes time (R163). -/
theorem State.stopWithFade_eq_of_moving {length : Nat} (moves : min 60000 length ≠ 0)
    (sounds : (s.chan c).fader.current ≠ 0) :
    s.stopWithFade c length =
      { s with su := { s.su with channels := s.su.channels.set c ((s.chan c).stopping length) } } := by
  rw [State.stopWithFade_of_moving s c moves sounds, State.chanTurned_record]

/-- A stop whose fade ends at once, of a channel with the block it plays, if any, on its ring (R163): its cursor comes to
`cursor`, and `writes` marks that block. -/
theorem State.stopWithFade_eq_of_still {length cursor : Nat} {writes : List Transfer}
    (still : min 60000 length = 0 ∨ (s.chan c).fader.current = 0)
    (block : (s.chan c).playing = none ∧ cursor = (s.chan c).cursor ∧ writes = []
      ∨ ∃ b g, (s.chan c).playing = some b ∧ (s.chan c).ring = some g ∧ cursor = (b.index + 1) % g.count
        ∧ writes =
          [⟨.descriptor c (s.chan c).startNumber, g.base + BitVec.ofNat 64 (16 * b.index), 1, [0xF8], true⟩]) :
    s.stopWithFade c length =
      { s with
        su :=
          { s.su with
            channels :=
              s.su.channels.set c
                { s.chan c with
                  state := .stopped, cursor := cursor, playing := none, next := none, marks := [], probe := none
                  stopPending := false, fader := ⟨0, 0, 0⟩ } }
        net :=
          { s.net with
            suToZm := s.net.suToZm ++ if (s.chan c).state = .running then [.streamRunning c false] else [] }
        bus := { s.bus with waiting := s.bus.waiting ++ writes } } := by
  rw [State.stopWithFade_of_still s c still]
  rcases block with ⟨silent, rfl, rfl⟩ | ⟨b, g, plays, ring, rfl, rfl⟩
  · simp [State.chanTurned, Chan.stopTurn, Chan.stopped, Chan.consumes, silent]
  · simp [State.chanTurned, Chan.stopTurn, Chan.stopped, Chan.consumes, Chan.marksDescriptor, Chan.following, plays, ring]

end

/-- Settles O28: each way a request goes is a branch of `takeStreamStop` or `takeStreamLevel`. -/
theorem streamStopAndStreamLevel : Obligations.StreamStopAndStreamLevel := by
  intro s slot nil
  have free := suTakesRequest_of_nil nil
  refine ⟨fun p dispatched => ⟨fun out => ?_, ?stop⟩, fun p dispatched => ⟨fun out => ?_, ?level⟩⟩
  case stop =>
    rintro c _ named rfl
    refine ⟨fun unfit => ?_, ?_⟩
    · exact request_answers dispatched free (takeStreamStop_of_unfit named unfit)
    · rintro background moves sound _ rfl
      have taken := takeStreamStop_of_fit (s := s) (slot := slot) named background moves sound
      refine ⟨fun long sounds => ?_, fun still => ⟨fun silent => ?_, fun b g plays ring => ?_⟩⟩
      · obtain ⟨fades, -⟩ := Fader.fade_zero_of_moving (f := (s.chan c).fader) long sounds
        rw [State.stopWithFade_eq_of_moving long sounds, Chan.stopping, fades] at taken
        exact request_answers dispatched free taken
      · rw [State.stopWithFade_eq_of_still still (.inl ⟨silent, rfl, rfl⟩), List.append_nil, ← silent] at taken
        exact request_answers dispatched free taken
      · rw [State.stopWithFade_eq_of_still still (.inr ⟨b, g, plays, ring, rfl, rfl⟩)] at taken
        exact request_answers dispatched free taken
  case level =>
    rintro c _ named rfl
    have taken := takeStreamLevel_of_named (s := s) (slot := slot) named
    refine ⟨fun show_class => ?_, fun background => ?_⟩
    · exact request_answers dispatched free (taken.trans (if_pos show_class))
    · rw [State.levelChannel_eq] at taken
      have other : (s.chan c).cls ≠ .show := fun h => nomatch background.symm.trans h
      exact request_answers dispatched free (taken.trans (if_neg other))
  · exact request_answers dispatched free (takeStreamStop_of_stream_out out)
  · exact request_answers dispatched free (takeStreamLevel_of_stream_out out)

end Sys2Proof.Machine

namespace Sys2Proof.Machine

/-! ## The actions of a cue (R173) -/

theorem Stage.muster_iff (st : Stage) : st.muster = true ↔ st = .general ∨ st = .abandon := by
  simp [Stage.muster]

theorem expiryOf_eq (n : Nat) : expiryOf n = if n = 0 then none else some (min 600000 n) := by
  rw [expiryOf, Nat.min_comm, Config.maxClip]

section
variable {s : State} {number : Nat} {c : Stream}

theorem act_streamStart_of_unfit {i target fade : Nat}
    (unfit : (s.chan c).cls ≠ .show ∨ ((s.chan c).state ≠ .stopped ∧ (s.chan c).state ≠ .fault)
      ∨ ∀ g, (s.chan c).ring = some g → g.count ≤ i) :
    s.act number (.streamStart c i target fade) = s.dropAction := by
  unfold State.act
  cases ring : (s.chan c).ring with
  | none => simp [ring]
  | some g =>
    have refused : ¬((s.chan c).cls = .show ∧ (s.chan c).state.idle = true ∧ i < g.count) := by
      rintro ⟨show_class, idle, within⟩
      rcases unfit with other | ⟨moves, sound⟩ | few
      · exact other show_class
      · exact Bool.false_ne_true ((StreamState.idle_of_not moves sound).symm.trans idle)
      · exact Nat.not_le.mpr within (few g ring)
    simp only [ring, Bool.and_eq_true, decide_eq_true_eq, and_assoc, if_neg refused]

theorem act_streamStart_of_fit {g : Ring} {i target fade : Nat} (show_class : (s.chan c).cls = .show)
    (idle : (s.chan c).state = .stopped ∨ (s.chan c).state = .fault) (ring : (s.chan c).ring = some g) (within : i < g.count) :
    s.act number (.streamStart c i target fade) = s.startChannel c i target fade := by
  simp [State.act, ring, show_class, (StreamState.idle_iff _).mpr idle, within]

theorem act_streamStop_of_other {fade : Nat} (other : (s.chan c).cls ≠ .show) :
    s.act number (.streamStop c fade) = s.dropAction := if_pos other

theorem act_streamStop_of_silent {fade : Nat} (show_class : (s.chan c).cls = .show) (not_running : (s.chan c).state ≠ .running)
    (not_starved : (s.chan c).state ≠ .starved) : s.act number (.streamStop c fade) = s := by
  simp [State.act, show_class, StreamState.playing, not_running, not_starved]

theorem act_streamStop_of_playing {fade : Nat} (show_class : (s.chan c).cls = .show)
    (plays : (s.chan c).state = .running ∨ (s.chan c).state = .starved) :
    s.act number (.streamStop c fade) = s.stopWithFade c fade := by
  simp [State.act, show_class, (StreamState.playing_iff _).mpr plays]

theorem act_streamLevel_eq {target fade : Nat} :
    s.act number (.streamLevel c target fade) =
      if (s.chan c).cls = .show then s.levelChannel c target fade else s.dropAction := by
  simp [State.act]

/-- A CLIP action of which the night filter takes `gone` (R69, R200). -/
theorem clipAction_eq {addr : Addr} {len : Nat} {k : SetIx} {chime : Bool} {policy : Policy} {expiry : Nat}
    {gone : ZoneMask} (awake : s.xu.mode = .normal ∨ s.xu.mode = .night)
    (filtered : s.filtered (s.zm.sets.get k).members false = gone) :
    s.clipAction number addr len k chime policy expiry =
      if addr.toNat % 64 ≠ 0 then s.dropAction
      else if (s.zm.sets.get k).members &&& ~~~gone = 0 then s
      else if 16 ≤ s.au.waitList.length then s.dropAction
      else
        { s with
          au :=
            { s.au with
              examPending := true
              waitList :=
                s.au.waitList ++
                  [⟨.cue number, (s.zm.sets.get k).members &&& ~~~gone, gone, addr, max 1 (min 600000 len), chime, policy,
                    if expiry = 0 then none else some (min 600000 expiry)⟩] } } := by
  have asleep : ¬(s.xu.mode = .standby ∨ s.xu.mode = .service) := by
    rcases awake with h | h <;> rw [h] <;> decide
  simp only [State.clipAction, if_neg asleep, filtered, clampClip_eq, expiryOf_eq, Bool.not_eq_true', ← Bool.not_eq_true,
    aligned64_iff, ne_eq]
  rfl

end

/-- Settles O32: each way an action goes is a branch of `State.act`. -/
theorem cueActionsActOrAreDropped : Obligations.CueActionsActOrAreDropped := by
  rintro s _ number rfl
  refine ⟨?stream, ?route, ?clip⟩
  case stream =>
    rintro c _ i target fade rfl
    refine ⟨act_streamStart_of_unfit, fun show_class idle g ring within => ?_, fun other => ⟨?_, ?_⟩,
      act_streamStop_of_silent, fun show_class plays long sounds => ?_,
      fun show_class plays still cursor writes block => ?_, fun show_class => ?_⟩
    · rw [act_streamStart_of_fit show_class idle ring within]
      exact State.startChannel_eq ring idle
    · exact act_streamStop_of_other other
    · exact act_streamLevel_eq.trans (if_neg other)
    · rw [act_streamStop_of_playing show_class plays]
      exact State.stopWithFade_eq_of_moving (by omega) sounds
    · rw [act_streamStop_of_playing show_class plays]
      exact State.stopWithFade_eq_of_still (still.imp_left fun at_once => by omega) block
    · exact (act_streamLevel_eq.trans (if_pos show_class)).trans (State.levelChannel_eq target fade)
  case route =>
    rintro c k gain _ rfl
    exact ⟨rfl, Zm.route_cross s.zm s.xu.mode c _ gain, Zm.route_get s.zm s.xu.mode c _ gain⟩
  case clip =>
    rintro addr len k chime policy expiry _ gone hgone rfl
    refine ⟨fun asleep => if_pos asleep, fun awake => ?_⟩
    have filtered : s.filtered (s.zm.sets.get k).members false = gone := by
      refine mask_ext fun z => Bool.eq_iff_iff.mpr ?_
      rw [State.inMask_filtered, hgone, eq_self_iff_true, true_and]
    have acts : s.act number (.clip addr len k chime policy expiry) = _ := clipAction_eq awake filtered
    refine ⟨fun off => ?_, fun aligned left => ?_, fun aligned left full => ?_, fun aligned left room => ?_⟩
    · exact acts.trans (if_pos off)
    · exact acts.trans ((if_neg (not_not.mpr aligned)).trans (if_pos left))
    · exact acts.trans ((if_neg (not_not.mpr aligned)).trans ((if_neg left).trans (if_pos full)))
    · exact acts.trans ((if_neg (not_not.mpr aligned)).trans ((if_neg left).trans (if_neg (Nat.not_le.mpr room))))

end Sys2Proof.Machine

namespace Sys2Proof.Machine

/-! ## Firing a cue (R172, R173) -/

/-- `t` holds the show of `s`, but for the count of dropped actions. -/
def State.showKept (s t : State) : Prop :=
  t.su.theShow = { s.su.theShow with dropped := t.su.theShow.dropped }

theorem State.showKept_of_same {s t : State} (same : t.su.theShow = s.su.theShow) : s.showKept t := by
  rw [State.showKept, same]

theorem State.showKept.trans {s t u : State} (h : s.showKept t) (k : t.showKept u) : s.showKept u := by
  unfold State.showKept at *
  rw [k, h]

theorem TouchesChannel.show {c : Stream} {s t : State} (touched : TouchesChannel c s t) : t.su.theShow = s.su.theShow := by
  rw [touched.su]

theorem State.showKept_clipAction (s : State) (number : Nat) (addr : Addr) (len : Nat) (k : SetIx) (chime : Bool)
    (policy : Policy) (expiry : Nat) : s.showKept (s.clipAction number addr len k chime policy expiry) := by
  simp only [State.clipAction]
  split_ifs <;> rfl

/-- An action leaves the show but for its count of dropped actions. -/
theorem State.showKept_act (s : State) (number : Nat) (a : Action) : s.showKept (s.act number a) := by
  cases a with
  | streamStart c i target fade =>
    by_cases fit : (s.chan c).cls = .show ∧ ((s.chan c).state = .stopped ∨ (s.chan c).state = .fault)
        ∧ ∃ g, (s.chan c).ring = some g ∧ i < g.count
    · obtain ⟨show_class, idle, g, ring, within⟩ := fit
      rw [act_streamStart_of_fit show_class idle ring within, State.startChannel_eq ring idle]
      rfl
    · rw [act_streamStart_of_unfit (by grind)]
      rfl
  | streamStop c fade =>
    simp only [State.act]
    split_ifs
    · rfl
    · exact State.showKept_of_same (touches_stopWithFade s c fade).show
    · rfl
  | streamLevel c target fade =>
    rw [act_streamLevel_eq, State.levelChannel_eq]
    split_ifs <;> rfl
  | route c k gain => rfl
  | clip addr len k chime policy expiry => exact s.showKept_clipAction ..

theorem State.showKept_actions (s : State) (number : Nat) (l : List Action) :
    s.showKept (l.foldl (fun t a => t.act number a) s) := by
  induction l generalizing s with
  | nil => exact State.showKept_of_same rfl
  | cons a l ih => exact (s.showKept_act number a).trans (ih _)

/-- A RUNNING show's next cue fires: its actions, then the pointer (R173). -/
theorem State.fireCue_eq {s : State} {w : Show} {i : Nat} {c : Cue} (stands : w = s.su.theShow) (running : w.state = .running)
    (pointer : w.pointer = some i) (cue : w.cues[i]? = some c) {v : State}
    (acted : v = c.actions.foldl (fun t a => t.act c.number a) s) :
    s.fireCue =
      { v with
        su :=
          { v.su with
            theShow :=
              { w with
                dropped := v.su.theShow.dropped, lastFire := w.clock
                pointer := if i + 1 < w.cues.length then some (i + 1) else none
                state := if i + 1 < w.cues.length then .running else .ended } } } := by
  subst stands acted
  have kept := s.showKept_actions c.number c.actions
  have fires : s.fireCue = (c.actions.foldl (fun t a => t.act c.number a) s).modShow fun w => w.advanced i := by
    simp only [State.fireCue, pointer, cue]
  rw [fires, State.modShow, State.modSu, kept]
  unfold Show.advanced
  split_ifs <;> simp_all

/-- Whether a trigger holds as the show stands (R172). -/
def Trigger.reached (k : Trigger) (w : Show) : Prop :=
  match k with
  | .go => False
  | .at n => n ≤ w.clock
  | .follow n => min 4294967295 (w.lastFire + n) ≤ w.clock

/-- Cue `c`, at place `i` of a RUNNING show, is next and comes due (R172). -/
def Show.ripe (w : Show) (i : Nat) (c : Cue) : Prop :=
  w.state = .running ∧ w.pointer = some i ∧ w.cues[i]? = some c ∧ c.trigger.reached w

theorem Show.triggerHolds_iff (w : Show) :
    w.triggerHolds = true ↔ ∃ c, w.nextCue = some c ∧ c.trigger.reached w := by
  unfold Show.triggerHolds
  cases w.nextCue with
  | none => simp
  | some c => cases h : c.trigger <;> simp [h, Trigger.reached, satAdd, Config.maxClock]

theorem Show.due_iff (w : Show) : w.due = true ↔ ∃ i c, w.ripe i c := by
  rw [Show.due, Bool.and_eq_true, decide_eq_true_eq, Show.triggerHolds_iff]
  simp only [Show.nextCue, Option.bind_eq_some_iff, Show.ripe]
  grind

/-! ## SHOW_GO and CUE_FIRE (R172, R174) -/

section
variable {s : State} {slot : SlotIx}

theorem takeShowGo_of_refused
    (refused : s.mau.published = .general ∨ s.mau.published = .abandon
      ∨ (s.su.theShow.state ≠ .loaded ∧ s.su.theShow.state ≠ .running)) :
    takeShowGo slot s = s.refuse slot .state 0 := by
  unfold takeShowGo
  split
  case isTrue => rfl
  case isFalse calm =>
    rw [Stage.muster_iff] at calm
    obtain ⟨not_loaded, not_running⟩ : s.su.theShow.state ≠ .loaded ∧ s.su.theShow.state ≠ .running := by tauto
    split
    case h_1 loaded => exact absurd loaded not_loaded
    case h_2 running => exact absurd running not_running
    all_goals rfl

theorem takeShowGo_of_loaded (not_general : s.mau.published ≠ .general) (not_abandon : s.mau.published ≠ .abandon)
    (loaded : s.su.theShow.state = .loaded) :
    takeShowGo slot s = (s.modShow fun w => { w with state := .running, clock := 0 }).perform slot .none := by
  simp [takeShowGo, Stage.muster_iff, not_general, not_abandon, loaded]

theorem takeShowGo_of_running (not_general : s.mau.published ≠ .general) (not_abandon : s.mau.published ≠ .abandon)
    (running : s.su.theShow.state = .running) : takeShowGo slot s = s.fireCue.perform slot .none := by
  simp [takeShowGo, Stage.muster_iff, not_general, not_abandon, running]

end

/-- CUE_FIRE in a firing, of a cue that is due (R172): the firing goes on for as long as the next cue is due. -/
theorem exec_cueFire_settles {s : State} {i : Nat} {c : Cue} (firing : s.su.theShow.firing = true)
    (ripe : s.su.theShow.ripe i c) :
    ∃ t, exec .cueFire s = .next t ∧ (s.fireCue.modShow fun w => { w with firing := w.due }).settles t := by
  have due : (s.su.theShow.firing && s.su.theShow.due) = true := by
    rw [firing, (Show.due_iff _).mpr ⟨i, c, ripe⟩, Bool.and_self]
  have run : exec .cueFire s = execCueFire s := rfl
  rw [run, execCueFire]
  exact event_settles due rfl

/-- Settles O31: a cue fires as `State.fireCue_eq` says, at SHOW_GO and at CUE_FIRE. -/
theorem showGoAndCueFireFireCues : Obligations.ShowGoAndCueFireFireCues := by
  rintro s _ rfl
  refine ⟨fun slot dispatched nil => ⟨fun refused => ?_, fun not_general not_abandon loaded => ?_⟩,
    fun i c v pointer cue acted => ?_⟩
  · exact request_answers dispatched (suTakesRequest_of_nil nil) (takeShowGo_of_refused refused)
  · exact request_answers dispatched (suTakesRequest_of_nil nil) (takeShowGo_of_loaded not_general not_abandon loaded)
  · rintro _ rfl running
    have fires := State.fireCue_eq rfl running pointer cue acted
    refine ⟨fun slot dispatched nil not_general not_abandon => ?_, fun firing reached => ?_⟩
    · have taken := takeShowGo_of_running (slot := slot) not_general not_abandon running
      rw [fires] at taken
      exact request_answers dispatched (suTakesRequest_of_nil nil) taken
    · have ripe : s.su.theShow.ripe i c := ⟨running, pointer, cue, reached⟩
      obtain ⟨t, taken, settled⟩ := exec_cueFire_settles firing ripe
      rw [fires] at settled
      exact ⟨t, taken, _, settled⟩

end Sys2Proof.Machine

namespace Sys2Proof.Machine

/-! ## Holds (R175 to R177) -/

/-- A list in which each element is sent or not. -/
theorem flatMap_eq_filter_map {α β : Type} (l : List α) (p : α → Prop) [DecidablePred p] (f : α → β) :
    (l.flatMap fun a => if p a then [f a] else []) = (l.filter fun a => decide (p a)).map f := by
  have sent := flatMap_filter_eq l (fun a => decide (p a)) fun a => [f a]
  simp only [decide_eq_true_eq] at sent
  rw [← sent, List.map_eq_flatMap]

theorem Chan.paused_eq (r : Chan) :
    r.paused =
      if r.cls = .show ∧ r.state = .running then { r with state := .paused .running }
      else if r.cls = .show ∧ r.state = .starved then { r with state := .paused .starved } else r := by
  unfold Chan.paused
  split_ifs with show_class running starved <;> cases state : r.state <;> simp_all

/-- ZM learns of a SHOW channel that was RUNNING. -/
theorem runningPost_paused (r : Chan) (c : Stream) :
    runningPost c r.state r.paused.state =
      if r.cls = .show ∧ r.state = .running then [.streamRunning c false] else [] := by
  rw [Chan.paused_eq]
  split_ifs with running starved
  · rw [running.2]
    rfl
  · rw [starved.2]
    rfl
  · exact runningPost_self c r.state

/-- ZM learns of a PAUSED channel that returns to RUNNING. -/
theorem runningPost_resumed (r : Chan) (c : Stream) :
    runningPost c r.state r.resumed.state = if r.state = .paused .running then [.streamRunning c true] else [] := by
  unfold Chan.resumed
  split
  case h_1 running => rw [running]; rfl
  case h_2 starved => rw [starved]; rfl
  case h_3 not_running _ => rw [if_neg not_running, runningPost_self]

section
variable {s : State}

/-- A show HELD, its SHOW channels PAUSED (R175). -/
theorem State.hold_eq (reason : HoldReason) :
    s.hold reason =
      { s with
        su :=
          { s.su with
            theShow := { s.su.theShow with state := .held reason }
            channels := s.su.channels.update fun _ r => r.paused }
        net :=
          { s.net with
            suToZm :=
              s.net.suToZm
                ++ ((List.finRange 16).filter fun c =>
                  decide ((s.su.channels.get c).cls = .show ∧ (s.su.channels.get c).state = .running)).map
                  fun c => .streamRunning c false } } := by
  rw [State.hold, foldl_setChan Chan.paused, ← flatMap_eq_filter_map]
  simp only [runningPost_paused]
  rfl

/-- Every PAUSED channel given its state again (R177). -/
theorem State.resumeAll_eq :
    s.resumeAll =
      { s with
        su := { s.su with channels := s.su.channels.update fun _ r => r.resumed }
        net :=
          { s.net with
            suToZm :=
              s.net.suToZm
                ++ (List.finRange 16).flatMap fun c =>
                  if (s.su.channels.get c).state = .paused .running then [.streamRunning c true] else [] } } := by
  have resumed := foldl_setChan Chan.resumed s
  simp only [runningPost_resumed] at resumed
  exact resumed

theorem ShowState.isHeld_iff (v : ShowState) : v.isHeld = true ↔ ∃ h, v = .held h := by
  cases v <;> simp [ShowState.isHeld]

theorem takeShowResume_of_refused {slot : SlotIx}
    (refused : s.mau.published = .general ∨ s.mau.published = .abandon ∨ ∀ h, s.su.theShow.state ≠ .held h) :
    takeShowResume slot s = s.refuse slot .state 0 := by
  unfold takeShowResume
  split_ifs with muster held
  · rfl
  · rw [Stage.muster_iff] at muster
    obtain ⟨h, held⟩ := (ShowState.isHeld_iff _).mp held
    exact absurd held (by tauto)
  · rfl

theorem takeShowResume_of_held {slot : SlotIx} {h : HoldReason} (not_general : s.mau.published ≠ .general)
    (not_abandon : s.mau.published ≠ .abandon) (held : s.su.theShow.state = .held h) :
    takeShowResume slot s = (s.modShow fun w => { w with state := .running }).resumeAll.perform slot .none := by
  simp [takeShowResume, Stage.muster_iff, not_general, not_abandon, held, ShowState.isHeld]

theorem exec_alarmHold_waits (waits : s.net.stageClaimWaits = true) : exec .alarmHold s = .next s := by
  have run : exec .alarmHold s = execAlarmHold s := rfl
  rw [run, execAlarmHold, waits, Bool.not_true, Bool.and_false, event_not_due]

/-- An ALARM_HOLD taken behind the claim of its stage (R128, R176). -/
theorem exec_alarmHold_settles {n : Nat} {u : State} (counted : s.net.alarmHolds = n + 1)
    (free : s.net.stageClaimWaits = false)
    (made : (if s.su.theShow.state = .running then (s.modNet fun m => { m with alarmHolds := n }).hold .alarm
      else s.modNet fun m => { m with alarmHolds := n }) = u) :
    ∃ t, exec .alarmHold s = .next t ∧ u.settles t := by
  have run : exec .alarmHold s = execAlarmHold s := rfl
  rw [run, execAlarmHold]
  refine event_settles (by simp [counted, free]) ?_
  rw [← made, show n = s.net.alarmHolds - 1 by omega]
  rfl

end

/-- Settles O33: the pause that the statement gives is `Chan.paused`, and ZM is told what `foldl_setChan` says. -/
theorem holdsPauseAndResumeChannels : Obligations.HoldsPauseAndResumeChannels := by
  rintro s _ pause _ rfl hpause rfl
  obtain rfl : Chan.paused = pause := funext fun r => (Chan.paused_eq r).trans (hpause r).symm
  refine ⟨fun slot dispatched nil => ⟨fun other => ?_, fun running => ?_⟩,
    fun n counted => ⟨fun waits => ?_, fun none_waits => ?_⟩,
    fun slot dispatched nil => ⟨fun refused => ?_, fun not_general not_abandon h held => ?_⟩⟩
  · exact request_answers dispatched (suTakesRequest_of_nil nil) (if_neg other)
  · have taken : takeShowHold slot s = _ := if_pos running
    rw [State.hold_eq] at taken
    exact request_answers dispatched (suTakesRequest_of_nil nil) taken
  · exact exec_alarmHold_waits (s.net.stageClaimWaits_iff.mpr waits)
  · have free : s.net.stageClaimWaits = false := by
      rw [← Bool.not_eq_true, Net.stageClaimWaits_iff]
      rintro ⟨k, m, st, waits⟩
      exact none_waits k m st waits
    refine ⟨fun other => ?_, fun running => ?_⟩
    · exact exec_alarmHold_settles counted free (if_neg other)
    · exact exec_alarmHold_settles counted free ((if_pos running).trans (State.hold_eq _))
  · exact request_answers dispatched (suTakesRequest_of_nil nil) (takeShowResume_of_refused refused)
  · have taken := takeShowResume_of_held (slot := slot) not_general not_abandon held
    rw [State.resumeAll_eq, flatMap_eq_filter_map] at taken
    exact request_answers dispatched (suTakesRequest_of_nil nil) taken

end Sys2Proof.Machine

namespace Sys2Proof.Machine

/-! ## Every channel's turn -/

/-- `s` with every channel as its operation leaves it. -/
def State.channelsTurned (s : State) (turn : Stream → ChanTurn) : State :=
  { s with
    su := { s.su with channels := Table.build fun c => (turn c).after }
    net :=
      { s.net with
        suToZm := s.net.suToZm ++ (List.finRange 16).flatMap fun c => (turn c).sends
        deliveries := s.net.deliveries ++ (List.finRange 16).flatMap fun c => (turn c).out }
    bus := { s.bus with waiting := s.bus.waiting ++ (List.finRange 16).flatMap fun c => (turn c).transfers } }

theorem State.chanTurned_chan_ne (s : State) {c d : Stream} (w : ChanTurn) (other : d ≠ c) :
    (s.chanTurned c w).chan d = s.chan d :=
  s.su.channels.get_set_ne w.after other

theorem State.foldl_chanTurned (s : State) (turn : Stream → ChanTurn) (l : List Stream) :
    l.foldl (fun v c => v.chanTurned c (turn c)) s =
      { s with
        su := { s.su with channels := l.foldl (fun t c => t.set c (turn c).after) s.su.channels }
        net :=
          { s.net with
            suToZm := s.net.suToZm ++ l.flatMap fun c => (turn c).sends
            deliveries := s.net.deliveries ++ l.flatMap fun c => (turn c).out }
        bus := { s.bus with waiting := s.bus.waiting ++ l.flatMap fun c => (turn c).transfers } } := by
  induction l generalizing s with
  | nil => simp
  | cons c l ih =>
    rw [List.foldl_cons, ih]
    simp [State.chanTurned]

/-- An event that gives each channel in turn an operation that rests on that channel's record alone. -/
theorem foldl_channels (f : State → Stream → State) (turn : Stream → ChanTurn) (s : State)
    (takes : ∀ t c, t.chan c = s.chan c → f t c = t.chanTurned c (turn c)) :
    (List.finRange 16).foldl f s = s.channelsTurned turn := by
  have key : ∀ (l : List Stream) (t : State), l.Nodup → (∀ c ∈ l, t.chan c = s.chan c) →
      l.foldl f t = l.foldl (fun v c => v.chanTurned c (turn c)) t := by
    intro l
    induction l with
    | nil => exact fun _ _ _ => rfl
    | cons c l ih =>
      intro t nodup as_was
      obtain ⟨not_mem, nodup⟩ := List.nodup_cons.mp nodup
      rw [List.foldl_cons, List.foldl_cons, takes t c (as_was c List.mem_cons_self)]
      exact ih _ nodup fun d hd =>
        (t.chanTurned_chan_ne _ (ne_of_mem_of_not_mem hd not_mem)).trans (as_was d (List.mem_cons_of_mem c hd))
  rw [key _ s (List.nodup_finRange 16) fun _ _ => rfl, State.foldl_chanTurned, Table.foldl_set, State.channelsTurned]

/-- Turns that deliver nothing. -/
theorem State.channelsTurned_silent (s : State) (after : Stream → Chan) (sends : Stream → List ZmMsg)
    (transfers : Stream → List Transfer) :
    (s.channelsTurned fun c => ⟨after c, sends c, [], transfers c⟩) =
      { s with
        su := { s.su with channels := Table.build after }
        net := { s.net with suToZm := s.net.suToZm ++ (List.finRange 16).flatMap sends }
        bus := { s.bus with waiting := s.bus.waiting ++ (List.finRange 16).flatMap transfers } } := by
  simp [State.channelsTurned]

/-! ## SHOW_STOP and SU_TEARDOWN (R178, R179) -/

/-- A channel that stops as a fade to silence ends at once (R163). -/
def Chan.silenced (r : Chan) : Chan := ({ r with fader := ⟨0, 0, 0⟩ } : Chan).stopped

/-- What ZM learns of a channel that stops (R33). -/
def Chan.leaves (r : Chan) (c : Stream) : List ZmMsg := if r.state = .running then [.streamRunning c false] else []

/-- What ZM learns of a channel that is given its state again (R177). -/
def Chan.returns (r : Chan) (c : Stream) : List ZmMsg := if r.state = .paused .running then [.streamRunning c true] else []

/-- A channel of the show that plays, told to stop by SHOW_STOP (R178); any other stands still. -/
def Chan.showStop (r : Chan) (length : Nat) (c : Stream) : ChanTurn :=
  if r.cls = .show ∧ (r.state = .running ∨ r.state = .starved) then
    if min 60000 length = 0 ∨ r.fader.current = 0 then ⟨r.silenced, r.leaves c, [], r.consumes c⟩
    else ⟨r.stopping length, [], [], []⟩
  else ⟨r, [], [], []⟩

/-- The same, by whether the channel stops at once. -/
theorem Chan.showStop_eq {r : Chan} {length : Nat} {now : Bool}
    (hnow : now = true ↔ r.cls = .show ∧ (r.state = .running ∨ r.state = .starved)
      ∧ (min 60000 length = 0 ∨ r.fader.current = 0)) (c : Stream) :
    r.showStop length c =
      ⟨if now then r.silenced
        else if r.cls = .show ∧ (r.state = .running ∨ r.state = .starved) then r.stopping length else r,
        if now then r.leaves c else [], [], if now then r.consumes c else []⟩ := by
  rw [← and_assoc] at hnow
  unfold Chan.showStop
  by_cases plays : r.cls = .show ∧ (r.state = .running ∨ r.state = .starved)
  · by_cases still : min 60000 length = 0 ∨ r.fader.current = 0
    · have stops : now = true := hnow.mpr ⟨plays, still⟩
      simp only [if_pos plays, if_pos still, if_pos stops]
    · have goes : ¬now = true := fun stops => still (hnow.mp stops).2
      simp only [if_pos plays, if_neg still, if_neg goes]
  · have goes : ¬now = true := fun stops => plays (hnow.mp stops).1
    simp only [if_neg plays, if_neg goes]

/-- A channel, given its state again, at a teardown (R179). -/
def Chan.tornDown (r : Chan) : Chan :=
  match r.state with
  | .fault => { r.silenced with cursor := r.cursor }
  | .stopped => { r with fader := { r.fader with step := 0 }, stopPending := false }
  | _ => r.silenced

section
variable (s : State) (c : Stream)

theorem State.stopWithFade_silences {length : Nat} (still : min 60000 length = 0 ∨ (s.chan c).fader.current = 0) :
    s.stopWithFade c length =
      s.chanTurned c ⟨(s.chan c).silenced, (s.chan c).leaves c, [], (s.chan c).consumes c⟩ :=
  s.stopWithFade_of_still c still

theorem State.stopShowChannel_eq_turned (length : Nat) :
    State.stopShowChannel length s c = s.chanTurned c ((s.chan c).showStop length c) := by
  simp only [State.stopShowChannel, StreamState.playing_iff, Chan.showStop]
  split_ifs with plays still
  · exact s.stopWithFade_silences c still
  · rw [not_or] at still
    exact s.stopWithFade_of_moving c still.1 still.2
  · exact (s.chanTurned_self c).symm

theorem State.resumeChannel_eq_turned :
    s.resumeChannel c = s.chanTurned c ⟨(s.chan c).resumed, (s.chan c).returns c, [], []⟩ := by
  rw [State.resumeChannel, State.setChan_eq_turned, runningPost_resumed, Chan.returns]

/-- A channel given its state again is not PAUSED. -/
theorem Chan.resumed_not_paused (r : Chan) (k : PriorState) : r.resumed.state ≠ .paused k := by
  unfold Chan.resumed
  split
  · exact nofun
  · exact nofun
  case h_3 not_running not_starved =>
    cases k with
    | running => exact not_running
    | starved => exact not_starved

theorem State.tearDownChannel_eq_turned :
    s.tearDownChannel c =
      s.chanTurned c
        ⟨(s.chan c).resumed.tornDown, (s.chan c).returns c ++ (s.chan c).resumed.leaves c, [],
          if (s.chan c).resumed.state = .running ∨ (s.chan c).resumed.state = .starved then
            (s.chan c).resumed.consumes c
          else []⟩ := by
  have silenced (t : State) : t.stopWithFade c 0 = _ := t.stopWithFade_silences c (.inl rfl)
  have not_paused := (s.chan c).resumed_not_paused
  unfold State.tearDownChannel
  simp only [State.resumeChannel_eq_turned, State.chanTurned_chan, silenced, State.setChan_eq_turned]
  generalize (s.chan c).resumed = r at *
  cases state : r.state with
  | paused k => exact absurd state (not_paused k)
  | _ =>
    simp [State.chanTurned_chanTurned, ChanTurn.followedBy, Chan.tornDown, Chan.leaves, state, runningPost,
      Chan.bare, Chan.silenced, Chan.stopped, Fader.still, Fader.fade_of_still]

end

theorem takeShowStop_of_refused {s : State} {slot : SlotIx} {p : ShowStopParams}
    (refused : s.su.theShow.state = .empty ∨ s.su.theShow.state = .loaded) :
    takeShowStop slot p s = s.refuse slot .state 0 := by
  rcases refused with state | state <;> simp [takeShowStop, state]

/-- What SU does with the SHOW_STOP of a show that stands, SHOW_STOP's stops following the returns (R178). -/
theorem takeShowStop_of_standing {s : State} {slot : SlotIx} {p : ShowStopParams} (not_empty : s.su.theShow.state ≠ .empty)
    (not_loaded : s.su.theShow.state ≠ .loaded) :
    takeShowStop slot p s =
      ((s.resumeAll.channelsTurned fun c => (s.chan c).resumed.showStop p.fade.toNat c).modShow Show.rewound).perform slot
        .none := by
  have stopped : (List.finRange 16).foldl (State.stopShowChannel p.fade.toNat) s.resumeAll =
      s.resumeAll.channelsTurned fun c => (s.chan c).resumed.showStop p.fade.toNat c := by
    refine foldl_channels _ _ _ fun t c as_was => ?_
    have resumed : s.resumeAll.chan c = (s.chan c).resumed := by
      rw [State.resumeAll_eq]
      exact Table.get_update ..
    rw [State.stopShowChannel_eq_turned, as_was, resumed]
  unfold takeShowStop
  rw [stopped]
  split
  case h_4 empty => exact absurd empty not_empty
  case h_5 loaded => exact absurd loaded not_loaded
  all_goals rfl

/-- What SU's part of a teardown makes of the show (R179). -/
theorem exec_suTeardown_settles {s : State} {q : List XuPart} (first : s.net.xuToSu = .teardown :: q) :
    ∃ t, exec .suTeardown s = .next t ∧ (s.modNet fun n => { n with xuToSu := q }).suTornDown.settles t := by
  have run : exec .suTeardown s = execSuTeardown s := rfl
  rw [run, execSuTeardown, first]
  exact settle_settles s _

theorem State.suTornDown_eq (s : State) :
    s.suTornDown =
      (s.channelsTurned fun c =>
        ⟨(s.chan c).resumed.tornDown, (s.chan c).returns c ++ (s.chan c).resumed.leaves c, [],
          if (s.chan c).resumed.state = .running ∨ (s.chan c).resumed.state = .starved then
            (s.chan c).resumed.consumes c
          else []⟩).modShow
        fun w => if w.state = .empty ∨ w.state = .loaded then w else w.rewound := by
  rw [State.suTornDown, foldl_channels State.tearDownChannel _ s fun t c as_was => by
    rw [State.tearDownChannel_eq_turned, as_was]]
  congr 1
  funext w
  cases state : w.state <;> simp

/-- Settles O34: what the statement says of a channel is its `Chan.resumed`, `Chan.silenced` and `Chan.tornDown`, and every
channel takes its turn. -/
theorem showStopAndTeardownStopChannels : Obligations.ShowStopAndTeardownStopChannels := by
  rintro s _ before stopped back left consumed rfl hbefore hstopped hback hleft hconsumed
  have hbefore (c : Stream) : before c = (s.chan c).resumed := hbefore c
  obtain rfl : before = fun c => (s.chan c).resumed := funext hbefore
  have hstopped (r : Chan) : stopped r = r.silenced := by
    rw [hstopped, Chan.silenced, Chan.stopped]
    cases r.playing <;> cases r.ring <;> rfl
  obtain rfl : stopped = Chan.silenced := funext hstopped
  have hconsumed (c : Stream) : consumed c = (s.chan c).resumed.consumes c := by
    rw [hconsumed, Chan.consumes]
    simp only [Chan.marksDescriptor]
    cases (s.chan c).resumed.playing <;> cases (s.chan c).resumed.ring <;> rfl
  obtain rfl : consumed = fun c => (s.chan c).resumed.consumes c := funext hconsumed
  obtain rfl : back = fun c => (s.chan c).returns c := funext hback
  obtain rfl : left = fun c => (s.chan c).resumed.leaves c := funext hleft
  refine ⟨fun slot p dispatched nil => ⟨fun refused => ?_, fun not_empty not_loaded after now hnow hafter => ?_⟩,
    fun q after first hafter => ?_⟩
  · exact request_answers dispatched (suTakesRequest_of_nil nil) (takeShowStop_of_refused refused)
  · have taken := takeShowStop_of_standing (slot := slot) (p := p) not_empty not_loaded
    have at_once (r : Chan) : (p.fade = 0 ∨ r.fader.current = 0) ↔ (min 60000 p.fade.toNat = 0 ∨ r.fader.current = 0) := by
      have zero : p.fade = 0 ↔ p.fade.toNat = 0 := BitVec.toNat_eq
      rw [zero]
      omega
    simp only [at_once] at hnow
    simp only [Chan.showStop_eq (hnow _), State.channelsTurned_silent, State.resumeAll_eq] at taken
    obtain rfl := funext hafter
    exact request_answers dispatched (suTakesRequest_of_nil nil) taken
  · obtain ⟨t, taken, settled⟩ := exec_suTeardown_settles first
    refine ⟨t, taken, ?_⟩
    rw [State.suTornDown_eq] at settled
    obtain rfl : after = fun c => (s.chan c).resumed.tornDown := funext hafter
    rw [State.channelsTurned_silent] at settled
    exact settled

end Sys2Proof.Machine

namespace Sys2Proof

/-! ## Fields written and read back (R208) -/

theorem leNat_lt (l : List Byte) : leNat l < 256 ^ l.length := by
  induction l with
  | nil => exact Nat.one_pos
  | cons b l ih =>
    have byte : b.toNat < 256 := b.isLt
    rw [leNat, List.length_cons, Nat.pow_succ]
    omega

/-- The bytes of the number that a list of bytes stands for are those bytes (R208). -/
theorem getElem?_of_leNat {l : List Byte} {i : Nat} (within : i < l.length) :
    l[i]? = some (BitVec.ofNat 8 (leNat l / 256 ^ i)) := by
  induction l generalizing i with
  | nil => exact absurd within i.not_lt_zero
  | cons b l ih =>
    have byte : b.toNat < 256 := b.isLt
    cases i with
    | zero =>
      rw [List.getElem?_cons_zero, Nat.pow_zero, Nat.div_one, leNat]
      exact congrArg some (BitVec.eq_of_toNat_eq (by rw [BitVec.toNat_ofNat]; omega))
    | succ i =>
      rw [List.getElem?_cons_succ, ih (Nat.lt_of_succ_lt_succ within), Nat.pow_succ', ← Nat.div_div_eq_div_mul, leNat,
        Nat.add_mul_div_left _ _ (by decide), Nat.div_eq_of_lt byte, Nat.zero_add]

theorem fieldAt_lt {n : Nat} (b : Table n Byte) (off size : Nat) : fieldAt b off size < 256 ^ size :=
  (leNat_lt _).trans_le (Nat.pow_le_pow_right (by decide) (List.length_take_le ..))

/-- A table bears fields that lie within it when it gives their values there. -/
theorem bears_iff {n : Nat} {fields : List (Nat × Nat × Nat)} {b : Table n Byte} (within : ∀ f ∈ fields, f.1 + f.2.1 ≤ n) :
    Machine.bears fields b.toList ↔ ∀ f ∈ fields, fieldAt b f.1 f.2.1 = f.2.2 := by
  refine ⟨fun holds f field => fieldAt_of_bears holds field, fun given f field => ?_⟩
  have length : ((b.toList.drop f.1).take f.2.1).length = f.2.1 := by
    have := within f field
    rw [List.length_take, List.length_drop, b.size_eq]
    omega
  rw [← given f field]
  refine ⟨fieldAt_lt b f.1 f.2.1, fun i hi => ?_⟩
  rw [← List.getElem?_drop, ← List.getElem?_take_of_lt hi]
  exact getElem?_of_leNat (length.symm ▸ hi)

theorem fieldAt_one {n : Nat} (b : Table n Byte) (i : Fin n) : fieldAt b i 1 = (b.get i).toNat := by
  have within : i.val < b.toList.length := b.size_eq.symm ▸ i.isLt
  rw [fieldAt, List.drop_eq_getElem_cons within, List.take_succ_cons, List.take_zero, leNat, leNat]
  rfl

theorem fieldBits_one {n : Nat} (b : Table n Byte) (i : Fin n) : fieldBits b i 1 = b.get i := by
  rw [fieldBits, fieldAt_one]
  exact BitVec.ofNat_toNat 8 (b.get i)

theorem fieldBits_eq_iff {n : Nat} (b : Table n Byte) (off size : Nat) (v : BitVec (8 * size)) :
    fieldBits b off size = v ↔ fieldAt b off size = v.toNat := by
  have small : fieldAt b off size < 2 ^ (8 * size) := by
    rw [Nat.pow_mul]
    exact fieldAt_lt b off size
  rw [fieldBits, BitVec.toNat_eq, BitVec.toNat_ofNat, Nat.mod_eq_of_lt small]

/-! ## Parts of a cue list as read (R210) -/

section
variable {b : Table 16 Byte}

theorem decodeCueCount_of_bears {n : Nat} (holds : Machine.bears [(0, 2, n)] b.toList) : decodeCueCount b = n :=
  fieldAt_of_bears holds (by simp)

theorem decodeCueHead_of_bears {number trigger actions argument : Nat}
    (holds : Machine.bears [(0, 2, number), (2, 1, trigger), (3, 1, actions), (4, 4, argument)] b.toList) :
    decodeCueHead b = ⟨number, trigger, actions, argument⟩ := by
  rw [decodeCueHead, fieldAt_of_bears holds (v := number) (by simp), fieldAt_of_bears holds (v := trigger) (by simp),
    fieldAt_of_bears holds (v := actions) (by simp), fieldAt_of_bears holds (v := argument) (by simp)]

/-- The bytes that an action is read from (R210): its kind in the low four bits of byte 0, its fields in their places. -/
def RawAction.standsIn (b : Table 16 Byte) : RawAction → Prop
  | .streamStart c i target fade =>
    (b.get 0).toNat % 16 = 1 ∧ Machine.bears [(1, 1, c), (2, 1, i), (4, 2, target), (8, 4, fade)] b.toList
  | .streamStop c fade => (b.get 0).toNat % 16 = 2 ∧ Machine.bears [(1, 1, c), (8, 4, fade)] b.toList
  | .streamLevel c target fade =>
    (b.get 0).toNat % 16 = 3 ∧ Machine.bears [(1, 1, c), (4, 2, target), (8, 4, fade)] b.toList
  | .route c k gain => (b.get 0).toNat % 16 = 4 ∧ Machine.bears [(1, 1, c), (2, 1, k), (4, 2, gain)] b.toList
  | .clip addr len k chime partly expiry =>
    ((b.get 0).toNat % 16 = 5
        ∧ Machine.bears [(1, 1, k), (2, 3, len), (5, 3, expiry), (8, 8, addr.toNat)] b.toList)
      ∧ (b.get 0).getLsbD 6 = chime ∧ (b.get 0).getLsbD 7 = partly
  | .unknown => (b.get 0).toNat % 16 = 0 ∨ 5 < (b.get 0).toNat % 16

theorem decodeAction_eq_iff (a : RawAction) : decodeAction b = a ↔ a.standsIn b := by
  have kind : fieldAt b 0 1 = (b.get 0).toNat := fieldAt_one b 0
  have flags : fieldBits b 0 1 = b.get 0 := fieldBits_one b 0
  have address (addr : Addr) : fieldBits b 8 8 = addr ↔ fieldAt b 8 8 = addr.toNat := fieldBits_eq_iff b 8 8 addr
  rw [decodeAction, kind, flags]
  cases a with
  | unknown =>
    simp only [RawAction.standsIn]
    split_ifs <;> simp <;> omega
  | clip addr len k chime partly expiry =>
    rw [RawAction.standsIn, bears_iff (by simp)]
    split_ifs <;> simp_all
    tauto
  | _ =>
    rw [RawAction.standsIn, bears_iff (by simp)]
    split_ifs <;> simp_all

end

end Sys2Proof

namespace Sys2Proof.Machine

/-! ## Actions checked (R170) -/

theorem index_eq_some {n k : Nat} {i : Fin n} : index n k = some i ↔ i.val = k := by
  refine ⟨fun named => ?_, index_some i⟩
  by_cases within : k < n
  · rw [index, dif_pos within, Option.some.injEq] at named
    rw [← named]
  · rw [index_none within] at named
    exact nomatch named

theorem Su.showStream_eq_some {u : Su} {n : Nat} {c : Stream} :
    u.showStream n = some c ↔ n = c.val ∧ (u.channels.get c).cls = .show := by
  simp only [Su.showStream, Option.bind_eq_some_iff, index_eq_some, Option.ite_none_right_eq_some, Option.some.injEq]
  constructor
  · rintro ⟨d, rfl, show_class, rfl⟩
    exact ⟨rfl, show_class⟩
  · rintro ⟨rfl, show_class⟩
    exact ⟨c, rfl, show_class, rfl⟩

/-- The action that a load stores for the one it reads (R168, R170). -/
def Action.storedFor (a : Action) (u : Su) (r : RawAction) : Prop :=
  match a with
  | .streamStart c i target fade => r = .streamStart c.val i target fade ∧ (u.channels.get c).cls = .show
  | .streamStop c fade => r = .streamStop c.val fade ∧ (u.channels.get c).cls = .show
  | .streamLevel c target fade => r = .streamLevel c.val target fade ∧ (u.channels.get c).cls = .show
  | .route c k gain => r = .route c.val k.val gain
  | .clip addr len k chime policy expiry =>
    ∃ partly : Bool, r = .clip addr len k.val chime partly expiry ∧ (policy = .partly ↔ partly = true)

theorem Su.checkAction_eq_some {u : Su} {r : RawAction} {a : Action} :
    u.checkAction r = some a ↔ a.storedFor u r := by
  cases r with
  | streamStart | streamStop | streamLevel =>
    simp only [Su.checkAction, Option.map_eq_some_iff, Su.showStream_eq_some]
    cases a <;> simp [Action.storedFor]
    tauto
  | route =>
    simp only [Su.checkAction, Option.bind_eq_some_iff, Option.map_eq_some_iff, index_eq_some]
    cases a <;> simp [Action.storedFor, eq_comm]
  | clip _ _ _ _ partly _ =>
    have policy (q : Policy) : (if partly then Policy.partly else .waitAll) = q ↔ (q = .partly ↔ partly = true) := by
      cases q <;> cases partly <;> decide
    simp only [Su.checkAction, Option.map_eq_some_iff, index_eq_some]
    cases a <;> simp [Action.storedFor, policy]
    grind
  | unknown => cases a <;> simp [Su.checkAction, Action.storedFor]

/-! ## SHOW_LOAD (R168, R169) -/

theorem ShowState.loadable_iff (v : ShowState) : v.loadable = true ↔ ¬(v = .running ∨ ∃ h, v = .held h) := by
  cases v <;> simp [ShowState.loadable]

section
variable {s : State} {slot : SlotIx} {p : ShowLoadParams}

theorem takeShowLoad_of_unaligned (off : p.list.toNat % 64 ≠ 0) : takeShowLoad slot p s = s.refuse slot .align 1 := by
  simp [takeShowLoad, aligned64, off]

theorem takeShowLoad_of_busy (aligned : p.list.toNat % 64 = 0)
    (busy : s.su.theShow.state = .running ∨ (∃ h, s.su.theShow.state = .held h) ∨ s.su.load ≠ none) :
    takeShowLoad slot p s = s.refuse slot .state 0 := by
  rw [takeShowLoad, if_neg (by simp [aligned64, aligned])]
  by_cases loadable : s.su.theShow.state.loadable = true
  · have loading : s.su.load.isSome = true := by
      rw [Option.isSome_iff_ne_none]
      exact (or_assoc.mpr busy).resolve_left ((ShowState.loadable_iff _).mp loadable)
    simp [loading]
  · simp [loadable]

theorem takeShowLoad_of_free (aligned : p.list.toNat % 64 = 0) (not_running : s.su.theShow.state ≠ .running)
    (not_held : ∀ h, s.su.theShow.state ≠ .held h) (no_load : s.su.load = none) :
    takeShowLoad slot p s =
      { s with
        su := { s.su with load := some ⟨slot, p.list, none, [], none, 0, 0⟩ }
        bus := { s.bus with waiting := s.bus.waiting ++ [⟨.cueList, p.list, 16, [], true⟩] } } := by
  have loadable : s.su.theShow.state.loadable = true := (ShowState.loadable_iff _).mpr (by simp [not_running, not_held])
  have start : p.list + BitVec.ofNat 64 0 = p.list := BitVec.add_zero p.list
  rw [takeShowLoad, if_neg (by simp [aligned64, aligned]), if_neg (by simp [loadable]), if_neg (by simp [no_load])]
  simp only [ShowLoad.read, start]
  rfl

end

/-! ## A part of the list arrives (R169, R170) -/

section
variable {s : State} {l : ShowLoad}

theorem exec_cueListReadComplete_settles {r : BusRead 16} {u : State} (reads : s.inProgress = some .cueList)
    (loading : s.su.load = some l) (made : s.portFreed.listRead l r = u) :
    ∃ t, exec (.cueListReadComplete r) s = .next t ∧ u.settles t := by
  have run : exec (.cueListReadComplete r) s = execCueListReadComplete r s := rfl
  simp only [run, execCueListReadComplete, reads, loading, made]
  exact settle_settles s u

/-- `s` with no load in flight. -/
def State.loadOver (s : State) : State := { s with su := { s.su with load := none } }

theorem State.endLoad_eq (c : Completion) : s.endLoad l c = s.loadOver.completed l.origin c := handOver_eq ..

theorem State.listRead_of_refused {r : BusRead 16} {c : RefusalCode} {d : Nat} (taken : l.take s.su r = .refused c d) :
    s.listRead l r = s.loadOver.completed l.origin (.refused c d) := by
  rw [State.listRead, taken]
  exact s.endLoad_eq _

theorem State.listRead_of_more {r : BusRead 16} {m : ShowLoad} (taken : l.take s.su r = .more m) :
    s.listRead l r =
      { s with
        su := { s.su with load := some m }
        bus := { s.bus with waiting := s.bus.waiting ++ [⟨.cueList, m.list + BitVec.ofNat 64 m.offset, 16, [], true⟩] } } := by
  rw [State.listRead, taken]
  rfl

/-- The last part of the list, which makes the table the show's or finds it standing (R170). -/
theorem State.listRead_of_complete {r : BusRead 16} {cues : List Cue} {n : Nat} (taken : l.take s.su r = .complete cues n) :
    s.listRead l r =
      if s.su.theShow.state.loadable then
        ((s.modShow fun w => { w with cues := cues }.rewound).loadOver).completed l.origin
          (.done .ok (.cues cues.length n))
      else s.loadOver.completed l.origin (.refused .state 0) := by
  rw [State.listRead, taken]
  simp only [State.loadTable, State.endLoad_eq]

/-! ### The checks of a part (R168, R170) -/

theorem ShowLoad.take_busError : l.take s.su .busError = .refused .bus 1 := rfl

theorem ShowLoad.take_header {b : Table 16 Byte} (first : l.total = none) :
    l.take s.su (.data b) =
      if decodeCueCount b = 0 ∨ 256 < decodeCueCount b then .refused .badList 1
      else .more { l with total := some (decodeCueCount b), offset := l.offset + 16 } := by
  rw [ShowLoad.take, first]
  rfl

theorem ShowLoad.ascends_iff (number : Nat) :
    l.ascends number = true ↔ ¬∃ c, l.cues.getLast? = some c ∧ number ≤ c.number := by
  unfold ShowLoad.ascends
  cases l.cues.getLast? <;> simp

theorem triggerOf_of_code {kind argument : Nat} {g : Trigger}
    (coded : kind = 0 ∧ g = .go ∨ kind = 1 ∧ g = .at argument ∨ kind = 2 ∧ g = .follow argument) :
    triggerOf kind argument = some g := by
  rcases coded with ⟨rfl, rfl⟩ | ⟨rfl, rfl⟩ | ⟨rfl, rfl⟩ <;> rfl

theorem triggerOf_of_out {kind argument : Nat} (out : 2 < kind) : triggerOf kind argument = none := by
  rw [triggerOf, if_neg (by omega), if_neg (by omega), if_neg (by omega)]

section
variable {b : Table 16 Byte} {n number trigger actions argument : Nat} (header_read : l.total = some n) (between : l.part = none)
  (holds : decodeCueHead b = ⟨number, trigger, actions, argument⟩)
include header_read between holds

theorem ShowLoad.take_bad_head
    (bad : 2 < trigger ∨ actions = 0 ∨ 4 < actions ∨ ∃ c, l.cues.getLast? = some c ∧ number ≤ c.number) :
    l.take s.su (.data b) = .refused .badList 1 := by
  have taken : l.take s.su (.data b) = l.head b := by rw [ShowLoad.take, header_read, between]
  rw [taken, ShowLoad.head, holds]
  simp only [Bool.not_eq_true', ← Bool.not_eq_true, ShowLoad.ascends_iff, not_not]
  by_cases unordered : ∃ c, l.cues.getLast? = some c ∧ number ≤ c.number
  · exact if_pos unordered
  · rw [if_neg unordered]
    by_cases out : 2 < trigger
    · rw [triggerOf_of_out out]
      rfl
    · cases triggerOf trigger argument with
      | none => rfl
      | some g => exact if_pos ((or_assoc.mpr (bad.resolve_left out)).resolve_right unordered)

theorem ShowLoad.take_good_head {g : Trigger}
    (coded : trigger = 0 ∧ g = .go ∨ trigger = 1 ∧ g = .at argument ∨ trigger = 2 ∧ g = .follow argument)
    (some_actions : 1 ≤ actions) (few : actions ≤ 4) (ascends : ∀ c, l.cues.getLast? = some c → c.number < number) :
    l.take s.su (.data b) = .more { l with part := some ⟨number, g, [], actions⟩, offset := l.offset + 16 } := by
  have taken : l.take s.su (.data b) = l.head b := by rw [ShowLoad.take, header_read, between]
  have ordered : l.ascends number = true := by
    rw [ShowLoad.ascends_iff]
    rintro ⟨c, last, le⟩
    exact Nat.not_le.mpr (ascends c last) le
  rw [taken, ShowLoad.head, holds]
  simp only [ordered, triggerOf_of_code coded]
  rw [if_neg (by decide), if_neg (by omega)]

end

section
variable {b : Table 16 Byte} {n : Nat} {p : CuePart} (header_read : l.total = some n) (within : l.part = some p)
include header_read within

theorem ShowLoad.take_bad_action (bad : 512 ≤ l.actions ∨ ∀ a, s.su.checkAction (decodeAction b) ≠ some a) :
    l.take s.su (.data b) = .refused .badList 1 := by
  have taken : l.take s.su (.data b) = l.action s.su n p b := by rw [ShowLoad.take, header_read, within]
  rw [taken, ShowLoad.action]
  split
  case isTrue => rfl
  case isFalse few =>
    have none_stored : s.su.checkAction (decodeAction b) = none :=
      Option.eq_none_iff_forall_ne_some.mpr (bad.resolve_left (by rw [Config.maxActions] at few; omega))
    rw [none_stored]
    rfl

/-- A sound action goes on to the next action, to the next cue, or to the end of the list. -/
theorem ShowLoad.take_good_action {a : Action} {cues : List Cue} (few : l.actions < 512)
    (stored : s.su.checkAction (decodeAction b) = some a)
    (read : cues = l.cues ++ [⟨p.number, p.trigger, p.actions ++ [a]⟩]) :
    l.take s.su (.data b) =
      if 1 < p.missing then
        .more
          { l with
            part := some { p with actions := p.actions ++ [a], missing := p.missing - 1 }
            actions := l.actions + 1, offset := l.offset + 16 }
      else if n ≤ cues.length then .complete cues (l.actions + 1)
      else
        .more
          { l with
            part := none, cues := cues, actions := l.actions + 1, offset := l.offset + 16 } := by
  subst read
  have taken : l.take s.su (.data b) = l.action s.su n p b := by rw [ShowLoad.take, header_read, within]
  rw [taken, ShowLoad.action, if_neg (by rw [Config.maxActions]; omega), stored]

end

end

/-- The actions that the bytes of a part name, as R210 lays them out, are those a load stores for them (R170). -/
theorem Su.checkAction_decodeAction {u : Su} {b : Table 16 Byte} {holds : Nat → List (Nat × Nat × Nat) → Prop}
    (hholds : ∀ kind fields, holds kind fields ↔ (b.get 0).toNat % 16 = kind ∧ bears fields b.toList) (a : Action) :
    u.checkAction (decodeAction b) = some a ↔
      match a with
      | .streamStart c i target fade =>
        holds 1 [(1, 1, c.val), (2, 1, i), (4, 2, target), (8, 4, fade)] ∧ (u.channels.get c).cls = .show
      | .streamStop c fade => holds 2 [(1, 1, c.val), (8, 4, fade)] ∧ (u.channels.get c).cls = .show
      | .streamLevel c target fade =>
        holds 3 [(1, 1, c.val), (4, 2, target), (8, 4, fade)] ∧ (u.channels.get c).cls = .show
      | .route c k gain => holds 4 [(1, 1, c.val), (2, 1, k.val), (4, 2, gain)]
      | .clip addr len k chime policy expiry =>
        holds 5 [(1, 1, k.val), (2, 3, len), (5, 3, expiry), (8, 8, addr.toNat)]
          ∧ chime = (b.get 0).getLsbD 6 ∧ (policy = .partly ↔ (b.get 0).getLsbD 7 = true) := by
  rw [Su.checkAction_eq_some]
  cases a with
  | clip =>
    simp only [Action.storedFor, hholds, decodeAction_eq_iff, RawAction.standsIn]
    grind
  | _ => simp only [Action.storedFor, hholds, decodeAction_eq_iff, RawAction.standsIn]

/-- Settles O30: each way a part goes is a branch of `ShowLoad.take`, on the part that its fields give. -/
theorem showLoadReadsTheCueList : Obligations.ShowLoadReadsTheCueList := by
  intro s
  refine ⟨fun slot p nil dispatched => ?request, ?part⟩
  case request =>
    refine ⟨fun off => ?_, fun aligned busy => ?_, fun aligned not_running not_held no_load => ?_⟩
    · exact request_answers dispatched (suTakesRequest_of_nil nil) (takeShowLoad_of_unaligned off)
    · exact request_answers dispatched (suTakesRequest_of_nil nil) (takeShowLoad_of_busy aligned busy)
    · exact request_takes dispatched (suTakesRequest_of_nil nil)
        (takeShowLoad_of_free aligned not_running not_held no_load)
  case part =>
    rintro l _ reads loading rfl
    have arrives {r : BusRead 16} {u : State} := exec_cueListReadComplete_settles (r := r) (u := u) reads loading
    refine ⟨arrives (State.listRead_of_refused ShowLoad.take_busError), ?_⟩
    rintro b _ rfl
    refine ⟨fun n first holds => ?header, fun n number trigger actions argument header_read between holds => ?head,
      fun n p holds showing names header_read within hholds hshowing hnames => ?action⟩
    case header =>
      have taken := ShowLoad.take_header (s := s.portFreed) (b := b) first
      rw [decodeCueCount_of_bears holds] at taken
      refine ⟨fun out => ?_, fun some_cues few => ?_⟩
      · exact arrives (State.listRead_of_refused (taken.trans (if_pos out)))
      · exact arrives (State.listRead_of_more (taken.trans (if_neg (by omega))))
    case head =>
      have decoded := decodeCueHead_of_bears holds
      refine ⟨fun bad => ?_, fun g coded some_actions few ascends => ?_⟩
      · exact arrives (State.listRead_of_refused (ShowLoad.take_bad_head header_read between decoded bad))
      · exact arrives (State.listRead_of_more
          (ShowLoad.take_good_head header_read between decoded coded some_actions few ascends))
    case action =>
      obtain rfl : showing = fun c => (s.su.channels.get c).cls = .show := funext fun c => propext (hshowing c)
      have stores (a : Action) : names a ↔ s.su.checkAction (decodeAction b) = some a :=
        (hnames a).trans (Su.checkAction_decodeAction hholds a).symm
      refine ⟨fun bad => ?_, fun a cues few named read => ?_⟩
      · have bad := bad.imp_right fun (none_named : ∀ a, ¬names a) a => mt (stores a).mpr (none_named a)
        exact arrives (State.listRead_of_refused (ShowLoad.take_bad_action header_read within bad))
      · have taken := ShowLoad.take_good_action (s := s.portFreed) header_read within few ((stores a).mp named) read
        refine ⟨fun further => ?_, fun last open_list => ?_,
          fun last whole => ⟨fun busy => ?_, fun not_running not_held => ?_⟩⟩
        · exact arrives (State.listRead_of_more (taken.trans (if_pos further)))
        · exact arrives (State.listRead_of_more
            (taken.trans ((if_neg (Nat.not_lt.mpr last)).trans (if_neg (Nat.not_le.mpr open_list)))))
        · have ended := State.listRead_of_complete (taken.trans ((if_neg (Nat.not_lt.mpr last)).trans (if_pos whole)))
          exact arrives (ended.trans (if_neg (mt (ShowState.loadable_iff _).mp (not_not.mpr busy))))
        · have ended := State.listRead_of_complete (taken.trans ((if_neg (Nat.not_lt.mpr last)).trans (if_pos whole)))
          have loadable := (ShowState.loadable_iff s.su.theShow.state).mpr (by simp [not_running, not_held])
          exact arrives (ended.trans (if_pos loadable))

end Sys2Proof.Machine

namespace Sys2Proof.Machine

/-! ## The fetch window (R159) -/

theorem Chan.marked_eq_false_iff (r : Chan) (b : BlockPeriod) :
    r.marked b = false ↔ ∀ m ∈ r.marks, m.index ≠ b.index ∨ m.period ≠ b.period := by
  simp only [Chan.marked, List.any_eq_false, Bool.and_eq_true, decide_eq_true_eq, ne_eq, not_and_or]

/-- A period of the play order as `Chan.unrequested` writes it. -/
def BlockPeriod.triple (b : BlockPeriod) : Nat × Nat × Addr := (b.index, b.period, b.addr)

/-- The periods of the window that bear no mark are those unrequested. -/
theorem Chan.unrequested_eq (r : Chan) : r.unrequested = (r.window.filter fun b => !r.marked b).map BlockPeriod.triple := by
  have bears_none : (fun b => !r.marked b) =
      (fun x : Nat × Nat × Addr => decide (∀ m ∈ r.marks, m.index ≠ x.1 ∨ m.period ≠ x.2.1)) ∘ BlockPeriod.triple := by
    funext b
    rw [Bool.eq_iff_iff, Bool.not_eq_true', Chan.marked_eq_false_iff]
    exact decide_eq_true_iff.symm
  rw [bears_none, ← List.filter_map, Chan.unrequested, Chan.window]
  congr 1
  cases r.playing with
  | none => rfl
  | some b =>
    cases r.next with
    | none => simp [List.map_take, BlockPeriod.triple, blockPeriod, Function.comp_def]
    | some n => simp [List.map_take, BlockPeriod.triple, blockPeriod, Function.comp_def]

theorem State.topUp_eq_turned (s : State) (c : Stream) :
    s.topUp c = s.chanTurned c ⟨(s.chan c).requested, [], [], (s.chan c).requests c⟩ := by
  simp [State.topUp, State.setChan_eq_turned, State.issue_eq_turned _ c, State.chanTurned_chanTurned,
    ChanTurn.followedBy, Chan.requested, Chan.requests, Chan.unrequested_eq, BlockPeriod.triple, Function.comp_def, readOf]

/-! ## Descriptors found (R155, R157) -/

theorem decodeDescriptor_of_bears {b : Table 16 Byte} {d : Descriptor} {flags : Nat}
    (holds : bears [(0, 1, d.state.toNat), (1, 1, flags), (2, 2, d.length), (8, 8, d.block.toNat)] b.toList)
    (last : d.last = decide (flags % 2 = 1)) : decodeDescriptor b = d := by
  have state : fieldBits b 0 1 = d.state := (fieldBits_eq_iff b 0 1 d.state).mpr (fieldAt_of_bears holds (by simp))
  have block : fieldBits b 8 8 = d.block := (fieldBits_eq_iff b 8 8 d.block).mpr (fieldAt_of_bears holds (by simp))
  have length : fieldAt b 2 2 = d.length := fieldAt_of_bears holds (by simp)
  have flag : fieldAt b 1 1 = flags := fieldAt_of_bears holds (by simp)
  have bit : (fieldBits b 1 1).getLsbD 0 = d.last := by
    rw [fieldBits, flag, BitVec.getLsbD_ofNat, Nat.testBit_zero, last]
    rfl
  rw [decodeDescriptor, state, block, length, bit]

/-! ## FAULT (R162) -/

section
variable {s : State} {c : Stream}

/-- A channel in FAULT plays nothing (R162). -/
def Chan.faulted (r : Chan) : Chan := { r.bare with state := .fault }

/-- A channel that comes into FAULT: ZM learns of one that was RUNNING, or PAUSED to return to it. -/
theorem State.faultChannel_eq (sound : (s.chan c).state ≠ .fault) :
    s.faultChannel c =
      { s with
        su := { s.su with channels := s.su.channels.set c (s.chan c).faulted }
        net :=
          { s.net with
            suToZm :=
              s.net.suToZm ++
                if (s.chan c).state = .running ∨ (s.chan c).state = .paused .running then [.streamRunning c false]
                else [] } } := by
  have post : runningPost c (s.chan c).state .fault =
      if (s.chan c).state = .running then [.streamRunning c false] else [] := by
    simp [runningPost_of_leaving]
  simp only [State.faultChannel, if_neg sound, State.setChan_eq, post]
  by_cases paused : (s.chan c).state = .paused .running
  · simp [paused, State.sendZm, State.modNet, Net.setToZm, Net.toZm, Chan.faulted]
  · simp [paused, Chan.faulted]

theorem State.faultChannel_of_fault (faulty : (s.chan c).state = .fault) : s.faultChannel c = s := if_pos faulty

/-! ## A probe completes (R157) -/

section
variable {i start : Nat}

theorem Chan.wanted_eq {r : Chan} {g : Ring} (ring : r.ring = some g) :
    r.wanted = if r.playing = none then r.cursor else (r.cursor + 1) % g.count := by
  simp only [Chan.wanted, Chan.after, ring, Option.isNone_iff_eq_none]

theorem State.probed_of_stale (b : BusRead 16)
    (stale : start ≠ (s.chan c).startNumber ∨ (s.chan c).state = .stopped ∨ (s.chan c).state = .fault
      ∨ i ≠ (s.chan c).wanted) :
    s.probed c i start b = s := by
  refine if_pos ?_
  rw [StreamState.idle_iff, or_assoc]
  exact stale

/-- What becomes of a probe that the channel awaits. -/
theorem State.probed_of_awaited (current : start = (s.chan c).startNumber) (awaited : i = (s.chan c).wanted)
    (moves : (s.chan c).state ≠ .stopped) (sound : (s.chan c).state ≠ .fault) :
    s.probed c i start .busError = s.faultChannel c
      ∧ ∀ bytes d, decodeDescriptor bytes = d →
          s.probed c i start (.data bytes) =
            if d.state = 0xFE then
              if d.block.toNat % 64 = 0 then s.takeDescriptor c i d else s.faultChannel c
            else s.setChan c (s.chan c).notFull := by
  have live : ¬(start ≠ (s.chan c).startNumber ∨ (s.chan c).state.idle = true ∨ i ≠ (s.chan c).wanted) := by
    rw [StreamState.idle_iff]
    tauto
  refine ⟨if_neg live, ?_⟩
  rintro bytes d rfl
  simp only [State.probed, if_neg live, aligned64_iff, descriptorFull]

theorem exec_probeComplete_settles {u : State} {b : BusRead 16} (reads : s.inProgress = some (.probe c i start))
    (made : s.portFreed.probed c i start b = u) : ∃ t, exec (.probeComplete b) s = .next t ∧ u.settles t := by
  have run : exec (.probeComplete b) s = execProbeComplete b s := rfl
  simp only [run, execProbeComplete, reads, made]
  exact settle_settles s u

end

theorem clampBlock_eq (n : Nat) : clamp 1 Config.maxBlock n = max 1 (min 1000 n) := clamp_eq _ _ _ (by decide)

/-- A channel that primes, or is PAUSED so, starves (R157). -/
theorem State.setChan_notFull_of_priming (silent : (s.chan c).playing = none) :
    s.setChan c (s.chan c).notFull =
      { s with
        su :=
          { s.su with
            channels :=
              s.su.channels.set c
                { s.chan c with
                  probe := none
                  state :=
                    match (s.chan c).state with
                    | .running => .starved
                    | .paused _ => .paused .starved
                    | x => x } }
        net :=
          { s.net with
            suToZm := s.net.suToZm ++ if (s.chan c).state = .running then [.streamRunning c false] else [] } } := by
  rw [State.setChan_eq]
  cases state : (s.chan c).state with
  | paused k => cases k <;> simp [Chan.notFull, silent, state, runningPost]
  | _ => simp [Chan.notFull, silent, state, runningPost]

theorem State.setChan_notFull_of_playing (plays : (s.chan c).playing ≠ none) :
    s.setChan c (s.chan c).notFull =
      { s with su := { s.su with channels := s.su.channels.set c { s.chan c with probe := none } } } := by
  have kept : (s.chan c).notFull = { s.chan c with probe := none } := by
    simp [Chan.notFull, Option.isSome_iff_ne_none, plays]
  rw [State.setChan_eq_turned, kept, runningPost_self, State.chanTurned_record]

/-- A channel that primes with its first block found (R157). -/
def Chan.primed (r : Chan) (i : Nat) (d : Descriptor) : Chan :=
  { r with
    probe := none, playing := some ⟨i, d.block, max 1 (min 1000 d.length), d.last, 0, true⟩, marks := []
    state :=
      match r.state with
      | .paused _ => .paused .running
      | _ => .running }

/-- The first periods of a block, all unrequested (R159). -/
theorem Chan.primed_unrequested {r : Chan} {i : Nat} {d : Descriptor} {ks : List Nat} (no_next : r.next = none)
    (first : ks = if 2 ≤ max 1 (min 1000 d.length) then [0, 1] else [0]) :
    (r.primed i d).unrequested = ks.map fun k => (i, k, d.block + BitVec.ofNat 64 (192 * k)) := by
  have filled : 0 < max 1 (min 1000 d.length) := by omega
  simp only [Chan.unrequested, Chan.primed, no_next]
  generalize max 1 (min 1000 d.length) = len at *
  by_cases two : 2 ≤ len
  · have one : 1 < len := two
    simp [first, two, filled, one]
  · have one : ¬1 < len := two
    simp [first, two, filled, one]

/-- ZM learns of a STARVED channel whose first block is found. -/
theorem runningPost_primed {r : Chan} {i : Nat} {d : Descriptor} (moves : r.state ≠ .stopped) (sound : r.state ≠ .fault) :
    runningPost c r.state (r.primed i d).state = if r.state = .starved then [.streamRunning c true] else [] := by
  cases state : r.state with
  | stopped => exact absurd state moves
  | fault => exact absurd state sound
  | _ => simp [Chan.primed, state, runningPost]

/-- The first block of a channel that primes: PLAYING, its first periods requested (R157, R159). -/
theorem State.takeDescriptor_of_priming {i : Nat} {d : Descriptor} {g : Ring} {ks : List Nat} (ring : (s.chan c).ring = some g)
    (silent : (s.chan c).playing = none) (no_next : (s.chan c).next = none) (moves : (s.chan c).state ≠ .stopped)
    (sound : (s.chan c).state ≠ .fault) (first : ks = if 2 ≤ max 1 (min 1000 d.length) then [0, 1] else [0]) :
    s.takeDescriptor c i d =
      { s with
        su :=
          { s.su with
            channels :=
              s.su.channels.set c { (s.chan c).primed i d with marks := ks.map fun k => ⟨i, k, none⟩ } }
        net :=
          { s.net with
            suToZm := s.net.suToZm ++ if (s.chan c).state = .starved then [.streamRunning c true] else [] }
        bus :=
          { s.bus with
            waiting :=
              s.bus.waiting
                ++ ⟨.descriptor c (s.chan c).startNumber, g.base + BitVec.ofNat 64 (16 * i), 1, [0xFC], true⟩
                  :: ks.map fun k =>
                    ⟨.block c i k (s.chan c).startNumber, d.block + BitVec.ofNat 64 (192 * k), 192, [], true⟩ } } := by
  have made : s.takeDescriptor c i d =
      ((s.setChan c ((s.chan c).primed i d)).writeDescriptor c i 0xFC).topUp c := by
    simp only [State.takeDescriptor, silent, clampBlock_eq]
    rfl
  have turned : s.takeDescriptor c i d =
      s.chanTurned c
        ⟨((s.chan c).primed i d).requested, if (s.chan c).state = .starved then [.streamRunning c true] else [], [],
          ((s.chan c).primed i d).marksDescriptor c i 0xFC ++ ((s.chan c).primed i d).requests c⟩ := by
    simp [made, State.setChan_eq_turned, State.writeDescriptor_eq_turned, State.topUp_eq_turned,
      State.chanTurned_chanTurned, ChanTurn.followedBy, runningPost_primed moves sound]
  have marked : ((s.chan c).primed i d).marksDescriptor c i 0xFC =
      [⟨.descriptor c (s.chan c).startNumber, g.base + BitVec.ofNat 64 (16 * i), 1, [0xFC], true⟩] := by
    simp [Chan.marksDescriptor, Chan.primed, ring]
  have requested : ((s.chan c).primed i d).requested =
      { (s.chan c).primed i d with marks := ks.map fun k => ⟨i, k, none⟩ } := by
    rw [Chan.requested, Chan.primed_unrequested no_next first, List.map_map]
    rfl
  rw [turned, marked, requested, Chan.requests, Chan.primed_unrequested no_next first, List.map_map, State.chanTurned,
    List.append_nil]
  rfl

theorem State.takeDescriptor_of_playing {i : Nat} {d : Descriptor} {e : Chan} (plays : (s.chan c).playing ≠ none)
    (follows : e = { s.chan c with probe := none, next := some ⟨i, d.block, max 1 (min 1000 d.length), d.last⟩ }) :
    s.takeDescriptor c i d =
      { s with
        su := { s.su with channels := s.su.channels.set c e.requested }
        bus := { s.bus with waiting := s.bus.waiting ++ e.requests c } } := by
  obtain ⟨b, plays⟩ := Option.ne_none_iff_exists'.mp plays
  have turned : s.takeDescriptor c i d = s.chanTurned c ⟨e.requested, [], [], e.requests c⟩ := by
    simp [State.takeDescriptor, plays, State.setChan_eq_turned, State.topUp_eq_turned, clampBlock_eq,
      State.chanTurned_chanTurned, ChanTurn.followedBy, follows]
  rw [turned]
  simp [State.chanTurned]

/-! ## A block fetch completes (R160) -/

section
variable {i k start : Nat}

theorem State.blockFetched_of_stale (b : BusRead 192)
    (stale : start ≠ (s.chan c).startNumber ∨ (s.chan c).state = .stopped ∨ (s.chan c).state = .fault
      ∨ ∀ m ∈ (s.chan c).marks, m.index ≠ i ∨ m.period ≠ k) :
    s.blockFetched c i k start b = s := by
  refine if_pos ?_
  rw [StreamState.idle_iff, Bool.not_eq_true', Chan.marked_eq_false_iff, or_assoc]
  exact stale

theorem State.blockFetched_of_awaited (current : start = (s.chan c).startNumber) (moves : (s.chan c).state ≠ .stopped)
    (sound : (s.chan c).state ≠ .fault) (awaited : ∃ m ∈ (s.chan c).marks, m.index = i ∧ m.period = k) :
    s.blockFetched c i k start .busError = s.faultChannel c
      ∧ ∀ bytes, s.blockFetched c i k start (.data bytes) =
          s.setChan c ((s.chan c).complete i k (clampWords (decodeWords bytes))) := by
  have live : ¬(start ≠ (s.chan c).startNumber ∨ (s.chan c).state.idle = true ∨ (!(s.chan c).marked ⟨i, k, 0⟩) = true) := by
    rw [StreamState.idle_iff, Bool.not_eq_true', Chan.marked_eq_false_iff]
    rintro (stale | (stopped | faulty) | unmarked)
    · exact stale current
    · exact moves stopped
    · exact sound faulty
    · obtain ⟨m, mem, index, period⟩ := awaited
      exact (unmarked m mem).elim (fun other => other index) fun other => other period
  exact ⟨if_neg live, fun bytes => if_neg live⟩

theorem exec_blockFetchComplete_settles {u : State} {b : BusRead 192} (reads : s.inProgress = some (.block c i k start))
    (made : s.portFreed.blockFetched c i k start b = u) :
    ∃ t, exec (.blockFetchComplete b) s = .next t ∧ u.settles t := by
  have run : exec (.blockFetchComplete b) s = execBlockFetchComplete b s := rfl
  simp only [run, execBlockFetchComplete, reads, made]
  exact settle_settles s u

theorem exec_descriptorWriteComplete_settles {u : State} {error : Bool} (writes : s.inProgress = some (.descriptor c start))
    (made : (if error && decide (start = (s.chan c).startNumber) then s.portFreed.faultChannel c else s.portFreed) = u) :
    ∃ t, exec (.descriptorWriteComplete error) s = .next t ∧ u.settles t := by
  have run : exec (.descriptorWriteComplete error) s = execDescriptorWriteComplete error s := rfl
  simp only [run, execDescriptorWriteComplete, writes, made]
  exact settle_settles s u

end

end

/-- Settles O53: each way a completion goes is a branch of `State.probed`, `State.blockFetched` or
`execDescriptorWriteComplete`. -/
theorem streamCompletionsFillTheWindow : Obligations.StreamCompletionsFillTheWindow := by
  rintro s _ c _ _ rfl rfl rfl
  refine ⟨fun i start wanted g reads ring hwanted => ?probe, fun i k start reads => ?block, fun start writes => ?write⟩
  case probe =>
    have arrives {b : BusRead 16} {u : State} := exec_probeComplete_settles (b := b) (u := u) reads
    have hwanted : wanted = (s.chan c).wanted := hwanted.trans (Chan.wanted_eq ring).symm
    refine ⟨fun b stale => ?_, fun current awaited moves sound => ?_⟩
    · exact arrives (State.probed_of_stale b (hwanted ▸ stale))
    · obtain ⟨failed, found⟩ := State.probed_of_awaited (s := s.portFreed) (c := c) current (awaited.trans hwanted) moves sound
      have faults := State.faultChannel_eq (s := s.portFreed) (c := c) sound
      refine ⟨arrives (failed.trans faults), ?_⟩
      rintro b d flags _ holds last rfl
      have found := found b d (decodeDescriptor_of_bears holds last)
      refine ⟨fun full off => ?_, fun other silent => ?_, fun other plays => ?_, fun full aligned silent no_next ks first => ?_,
        fun full aligned plays e follows => ?_⟩
      · exact arrives (found.trans ((if_pos full).trans ((if_neg off).trans faults)))
      · exact arrives (found.trans ((if_neg other).trans (State.setChan_notFull_of_priming silent)))
      · exact arrives (found.trans ((if_neg other).trans (State.setChan_notFull_of_playing plays)))
      · rw [current]
        exact arrives (found.trans ((if_pos full).trans ((if_pos aligned).trans
          (State.takeDescriptor_of_priming ring silent no_next moves sound first))))
      · exact arrives (found.trans ((if_pos full).trans ((if_pos aligned).trans
          (State.takeDescriptor_of_playing plays follows))))
  case block =>
    have arrives {b : BusRead 192} {u : State} := exec_blockFetchComplete_settles (b := b) (u := u) reads
    refine ⟨fun b stale => arrives (State.blockFetched_of_stale b stale), fun current moves sound awaited => ?_⟩
    obtain ⟨failed, fetched⟩ := State.blockFetched_of_awaited (s := s.portFreed) (c := c) current moves sound awaited
    refine ⟨arrives (failed.trans (State.faultChannel_eq sound)), fun b x samples => ?_⟩
    have completed := fetched b
    rw [clampWords_decodeWords samples, State.setChan_eq_turned, Chan.complete, runningPost_self, State.chanTurned_record]
      at completed
    exact arrives completed
  case write =>
    have arrives {error : Bool} {u : State} := exec_descriptorWriteComplete_settles (error := error) (u := u) writes
    refine ⟨arrives rfl, fun stale => ?_, fun current sound => ?_, fun current faulty => ?_⟩
    · exact arrives (if_neg (by simp [State.chan, stale]))
    · exact arrives ((if_pos (by simp [State.chan, current])).trans (State.faultChannel_eq sound))
    · exact arrives ((if_pos (by simp [State.chan, current])).trans (State.faultChannel_of_fault faulty))

end Sys2Proof.Machine

namespace Sys2Proof.Machine

/-! ## A fade at a period start (R47, R161) -/

theorem Fader.moved_current (f : Fader) : f.moved.current = f.faded.current := by
  rw [Fader.moved_eq, Fader.faded]

theorem Fader.arrived_moved (f : Fader) : f.moved.arrived = true ↔ f.step ≠ 0 ∧ f.faded.current = f.target := by
  rw [← Fader.moved_current, Fader.moved_eq, Fader.arrived, Bool.and_eq_true, decide_eq_true_eq, decide_eq_true_eq]

theorem Fader.still_moved (f : Fader) (arrived : f.moved.arrived = true) : f.moved.still = f.faded := by
  obtain ⟨-, there⟩ := f.arrived_moved.mp arrived
  rw [Fader.moved_eq, Fader.still, Fader.faded, Fader.mk.injEq]
  exact ⟨rfl, rfl, (if_pos there).symm⟩

theorem Fader.moved_of_not_arrived (f : Fader) (moving : ¬f.moved.arrived = true) : f.moved = f.faded := by
  have still_or_away : f.step = 0 ∨ f.faded.current ≠ f.target := by
    rw [Fader.arrived_moved] at moving
    tauto
  rw [Fader.moved_eq, Fader.faded, Fader.mk.injEq]
  refine ⟨rfl, rfl, ?_⟩
  rcases still_or_away with still | away
  · rw [still, ite_self]
  · exact (if_neg away).symm

/-- A channel whose fader has moved (R161, step 1). -/
def Chan.fadedOnce (r : Chan) : Chan := { r with fader := r.fader.faded }

/-- A stop's fade arrives at this period start (R163). -/
def Chan.stopArrives (r : Chan) : Prop :=
  r.fader.step ≠ 0 ∧ r.fader.faded.current = r.fader.target ∧ r.stopPending = true

theorem Chan.still_of_not_stopArrives {r : Chan} (goes_on : ¬r.stopArrives) :
    r.fader.step = 0 ∨ r.fader.faded.current ≠ r.fader.target ∨ r.stopPending = false := by
  rw [Chan.stopArrives, ← Bool.not_eq_false] at goes_on
  tauto

section
variable {s : State} {c : Stream}

theorem State.fadePeriod_of_stop (arrives : (s.chan c).stopArrives) :
    s.fadePeriod c = (s.chanTurned c ((s.chan c).fadedOnce.stopTurn c), true) := by
  obtain ⟨moves, there, stops⟩ := arrives
  have arrived := (s.chan c).fader.arrived_moved.mpr ⟨moves, there⟩
  have kept : runningPost c (s.chan c).state ({ s.chan c with fader := (s.chan c).fader.faded } : Chan).state = [] :=
    runningPost_self ..
  simp only [State.fadePeriod, arrived, Fader.still_moved _ arrived, stops, if_true, State.setChan_eq_turned,
    State.stopChannel_eq_turned, State.chanTurned_chanTurned, State.chanTurned_chan, kept, ChanTurn.followedBy,
    List.nil_append]
  rfl

theorem State.fadePeriod_of_no_stop (goes_on : ¬(s.chan c).stopArrives) :
    s.fadePeriod c = (s.chanTurned c ⟨(s.chan c).fadedOnce, [], [], []⟩, false) := by
  simp only [State.fadePeriod]
  by_cases arrived : (s.chan c).fader.moved.arrived = true
  · have no_stop : (s.chan c).stopPending = false := by
      obtain ⟨moves, there⟩ := Fader.arrived_moved _ |>.mp arrived
      rw [Chan.stopArrives] at goes_on
      simpa [moves, there] using goes_on
    simp [arrived, Fader.still_moved _ arrived, no_stop, State.setChan_eq_turned, Chan.fadedOnce]
  · rw [if_neg arrived, Fader.moved_of_not_arrived _ arrived, State.setChan_eq_turned, runningPost_self]
    rfl

end

/-! ## A block's period, and its end (R158, R161, step 2) -/

/-- The end of the block `b` that a channel plays (R158). -/
def Chan.endTurn (r : Chan) (c : Stream) (b : Playing) : ChanTurn :=
  if b.last then ⟨{ r.stopped with cursor := r.cursor }, r.leaves c, [], r.marksDescriptor c b.index 0xF8⟩
  else
    match r.next with
    | some n =>
      ⟨{ r with
          cursor := r.following r.cursor, playing := some ⟨n.index, n.addr, n.len, n.last, 0, false⟩, next := none
          marks := r.marks.filter fun m => decide (m.index = n.index) },
        [], [], r.marksDescriptor c b.index 0xF8 ++ r.marksDescriptor c n.index 0xFC⟩
    | none =>
      ⟨{ r with cursor := r.following r.cursor, playing := none, marks := [], state := .starved }, r.leaves c, [],
        r.marksDescriptor c b.index 0xF8⟩

section
variable {r : Chan} {c : Stream} {b : Playing}

theorem Chan.endTurn_of_last (last : b.last = true) :
    r.endTurn c b = ⟨{ r.stopped with cursor := r.cursor }, r.leaves c, [], r.marksDescriptor c b.index 0xF8⟩ :=
  if_pos last

theorem Chan.endTurn_of_none (not_last : b.last = false) (no_next : r.next = none) :
    r.endTurn c b =
      ⟨{ r with cursor := r.following r.cursor, playing := none, marks := [], state := .starved }, r.leaves c, [],
        r.marksDescriptor c b.index 0xF8⟩ := by
  rw [Chan.endTurn, if_neg (Bool.eq_false_iff.mp not_last)]
  split
  case h_1 n next => exact nomatch no_next.symm.trans next
  case h_2 => rfl

theorem Chan.endTurn_of_next {n : NextBlock} (not_last : b.last = false) (next : r.next = some n) :
    r.endTurn c b =
      ⟨{ r with
          cursor := r.following r.cursor, playing := some ⟨n.index, n.addr, n.len, n.last, 0, false⟩, next := none
          marks := r.marks.filter fun m => decide (m.index = n.index) },
        [], [], r.marksDescriptor c b.index 0xF8 ++ r.marksDescriptor c n.index 0xFC⟩ := by
  rw [Chan.endTurn, if_neg (Bool.eq_false_iff.mp not_last), next]

end

theorem State.blockEnded_eq_turned (s : State) (c : Stream) (b : Playing) :
    s.blockEnded c b = s.chanTurned c ((s.chan c).endTurn c b) := by
  have left (v : StreamState) (other : v ≠ .running) : runningPost c (s.chan c).state v = (s.chan c).leaves c := by
    simp [runningPost_of_leaving, other, Chan.leaves]
  simp only [State.blockEnded, State.writeDescriptor_eq_turned, State.chanTurned_chan, Chan.endTurn]
  split_ifs with last
  · simp [State.setChan_eq_turned, State.chanTurned_chanTurned, ChanTurn.followedBy, left, Chan.bare, Chan.stopped,
      descriptorConsumed]
  · cases next : (s.chan c).next with
    | none =>
      simp [State.setChan_eq_turned, State.chanTurned_chanTurned, ChanTurn.followedBy, left, Chan.after_eq_following,
        descriptorConsumed]
    | some n =>
      simp [State.setChan_eq_turned, State.chanTurned_chanTurned, ChanTurn.followedBy, Chan.after_eq_following,
        Chan.marksDescriptor, descriptorConsumed, descriptorPlaying]

/-- A playing block past a due period. -/
def Playing.past (b : Playing) : Playing := { b with period := b.period + 1 }

/-- The record of a channel past a due period: late unless its samples are there (R161, step 2). -/
def Chan.pastPeriod (r : Chan) (b : Playing) : Chan :=
  { r with
    playing := some b.past
    lates := if r.samplesOf b.index b.period = none then min 65535 (r.lates + 1) else r.lates
    marks := r.marks.filter fun m => decide (m.index ≠ b.index ∨ m.period ≠ b.period) }

/-- What a channel delivers of a due period: its samples through the fader (R33). -/
def Chan.delivers (r : Chan) (c : Stream) (b : Playing) : List (Source × Period) :=
  match r.samplesOf b.index b.period with
  | some x => [(.stream c, scaled x r.fader.current)]
  | none => []

/-- Step 2 of R161, of a channel that plays. -/
def Chan.blockTurn (r : Chan) (c : Stream) : ChanTurn :=
  match r.playing with
  | none => ⟨{ r with starves := if r.state = .starved then min 65535 (r.starves + 1) else r.starves }, [], [], []⟩
  | some b =>
    if b.lead then ⟨{ r with playing := some { b with lead := false } }, [], [], []⟩
    else
      ChanTurn.followedBy ⟨r.pastPeriod b, [], r.delivers c b, []⟩
        (if b.len ≤ b.period + 1 then (r.pastPeriod b).endTurn c b.past
        else ⟨r.pastPeriod b, [], [], []⟩)

section
variable {r : Chan} {c : Stream} {b : Playing}

theorem Chan.blockTurn_of_none (silent : r.playing = none) :
    r.blockTurn c =
      ⟨{ r with starves := if r.state = .starved then min 65535 (r.starves + 1) else r.starves }, [], [], []⟩ := by
  unfold Chan.blockTurn
  split
  case h_1 => rfl
  case h_2 b plays => exact nomatch silent.symm.trans plays

theorem Chan.blockTurn_of_lead (plays : r.playing = some b) (lead : b.lead = true) :
    r.blockTurn c = ⟨{ r with playing := some { b with lead := false } }, [], [], []⟩ := by
  simp only [Chan.blockTurn, plays, if_pos lead]

theorem Chan.blockTurn_of_within (plays : r.playing = some b) (led : b.lead = false) (more : b.period + 1 < b.len) :
    r.blockTurn c = ⟨r.pastPeriod b, [], r.delivers c b, []⟩ := by
  simp only [Chan.blockTurn, plays, led, Bool.false_eq_true, if_false, if_neg (Nat.not_le.mpr more), ChanTurn.followedBy,
    List.append_nil]

theorem Chan.blockTurn_of_end (plays : r.playing = some b) (led : b.lead = false) (at_end : b.len ≤ b.period + 1) :
    r.blockTurn c =
      ChanTurn.followedBy ⟨r.pastPeriod b, [], r.delivers c b, []⟩
        ((r.pastPeriod b).endTurn c b.past) := by
  simp only [Chan.blockTurn, plays, led, Bool.false_eq_true, if_false, if_pos at_end]

end

theorem State.disposePeriod_eq (s : State) (c : Stream) (b : Playing) {t : State}
    (past : t = s.chanTurned c ⟨(s.chan c).pastPeriod b, [], (s.chan c).delivers c b, []⟩) :
    s.disposePeriod c b = if b.len ≤ b.period + 1 then t.blockEnded c b.past else t := by
  subst past
  have kept : (fun m : BlockMark => !(decide (m.index = b.index) && decide (m.period = b.period))) =
      fun m => decide (m.index ≠ b.index ∨ m.period ≠ b.period) := by
    funext m
    simp [Bool.not_and]
  unfold State.disposePeriod Chan.pastPeriod Chan.delivers Playing.past
  cases samples : (s.chan c).samplesOf b.index b.period with
  | none =>
    simp only [samples, kept, State.setChan_eq_turned, runningPost_self, Option.isSome_none,
      Bool.false_eq_true, if_false, if_true, countUp_eq]
  | some x =>
    simp only [samples, kept, State.setChan_eq_turned, State.deliver_eq_turned _ c, State.chanTurned_chan,
      runningPost_self, State.chanTurned_chanTurned, ChanTurn.followedBy, Option.isSome_some, reduceCtorEq, if_true,
      if_false, List.append_nil]

theorem State.disposePeriod_eq_turned (s : State) (c : Stream) (b : Playing) :
    s.disposePeriod c b =
      (s.chanTurned c
        (ChanTurn.followedBy ⟨(s.chan c).pastPeriod b, [], (s.chan c).delivers c b, []⟩
          (if b.len ≤ b.period + 1 then ((s.chan c).pastPeriod b).endTurn c b.past
          else ⟨(s.chan c).pastPeriod b, [], [], []⟩))) := by
  rw [State.disposePeriod_eq s c b rfl]
  split_ifs
  · rw [State.blockEnded_eq_turned, State.chanTurned_chan, State.chanTurned_chanTurned]
  · simp [ChanTurn.followedBy]

theorem State.blockPeriodStart_eq_turned (s : State) (c : Stream) :
    s.blockPeriodStart c = s.chanTurned c ((s.chan c).blockTurn c) := by
  unfold State.blockPeriodStart Chan.blockTurn
  cases plays : (s.chan c).playing with
  | none =>
    by_cases starved : (s.chan c).state = .starved
    · simp [plays, starved, State.setChan_eq_turned, countUp_eq]
    · simp only [plays, if_neg starved]
      rw [← plays]
      exact (s.chanTurned_self c).symm
  | some b =>
    by_cases lead : b.lead = true
    · simp [plays, lead, State.setChan_eq_turned]
    · simp [plays, lead, State.disposePeriod_eq_turned]

/-! ## The turn of a channel at a period start (R161) -/

/-- What ZM learns of a channel that a period start takes from `r` to `mid` (R33). -/
def Chan.parts (r mid : Chan) (c : Stream) : List ZmMsg :=
  if r.state = .running ∧ mid.state ≠ .running then [.streamRunning c false] else []

section
variable {r mid d : Chan} {c : Stream} {out : List (Source × Period)} {writes : List Transfer}

theorem Chan.parts_of_same (to_mid : mid = d) (same : d.state = r.state) : r.parts mid c = [] :=
  if_neg fun ⟨running, other⟩ => other (to_mid ▸ same.trans running)

theorem Chan.parts_of_other (to_mid : mid = d) (other : d.state ≠ .running) : r.parts mid c = r.leaves c := by
  subst to_mid
  simp [Chan.parts, Chan.leaves, other]

/-- The samples that a statement gives are those of `scaled` (R33). -/
theorem Chan.delivers_eq {b : Playing}
    (given : match r.samplesOf b.index b.period with
      | none => out = []
      | some x => ∃ y : Period, out = [(.stream c, y)]
        ∧ ∀ i, y.get i = (x.get i * r.fader.faded.current + 16384) / 32768) :
    out = r.fadedOnce.delivers c b := by
  have same : r.fadedOnce.samplesOf b.index b.period = r.samplesOf b.index b.period := rfl
  unfold Chan.delivers
  rw [same]
  cases samples : r.samplesOf b.index b.period with
  | none =>
    rw [samples] at given
    exact given
  | some x =>
    rw [samples] at given
    obtain ⟨y, rfl, scales⟩ := given
    have scaled_eq : y = scaled x r.fader.faded.current :=
      Table.ext_get fun i => by
        rw [scales, scaled, Table.get_update]
        rfl
    rw [scaled_eq]
    rfl

/-- What a period start does with the block of a channel that plays is its `Chan.blockTurn` (R158, R161). -/
theorem Chan.blockTurn_eq (playing : r.state = .running ∨ r.state = .starved)
    (goes_on : ¬r.stopArrives) (plays : r.playsPeriod c mid out writes) :
    r.fadedOnce.blockTurn c = ⟨mid, r.parts mid c, out, writes⟩ := by
  have not_paused (k : PriorState) : r.state ≠ .paused k := by
    rcases playing with h | h <;> rw [h] <;> exact nofun
  obtain ⟨-, moves⟩ := plays
  obtain ⟨-, moves⟩ := moves not_paused r.fadedOnce rfl
  obtain ⟨-, moves⟩ := moves (Chan.still_of_not_stopArrives goes_on)
  obtain ⟨silent, sounding⟩ := moves playing
  cases block : r.playing with
  | none =>
    obtain ⟨to_mid, rfl, rfl⟩ := silent block
    rw [Chan.blockTurn_of_none (r := r.fadedOnce) block, Chan.parts_of_same (r := r) to_mid rfl, to_mid]
    rfl
  | some b =>
    obtain ⟨lead, past⟩ := sounding b block
    cases leads : b.lead with
    | true =>
      obtain ⟨to_mid, rfl, rfl⟩ := lead leads
      rw [Chan.blockTurn_of_lead (r := r.fadedOnce) block leads, Chan.parts_of_same (r := r) to_mid rfl, to_mid]
    | false =>
      obtain ⟨delivered, goes, stops, starves, follows⟩ := past leads _ rfl
      obtain rfl := Chan.delivers_eq delivered
      by_cases more : b.period + 1 < b.len
      · obtain ⟨to_mid, rfl⟩ := goes more
        rw [Chan.blockTurn_of_within (r := r.fadedOnce) block leads more, Chan.parts_of_same (r := r) to_mid rfl, to_mid]
        rfl
      · have at_end := Nat.not_lt.mp more
        rw [Chan.blockTurn_of_end (r := r.fadedOnce) block leads at_end]
        rcases Bool.eq_false_or_eq_true b.last with last | last
        · obtain ⟨to_mid, rfl⟩ := stops at_end last
          rw [Chan.endTurn_of_last (r := r.fadedOnce.pastPeriod b) (b := b.past) last, Chan.parts_of_other to_mid nofun, to_mid,
            ChanTurn.followedBy, List.append_nil]
          rfl
        · cases next : r.next with
          | none =>
            obtain ⟨to_mid, rfl⟩ := starves at_end last next
            rw [Chan.endTurn_of_none (r := r.fadedOnce.pastPeriod b) (b := b.past) last next, Chan.parts_of_other to_mid nofun,
              to_mid, ChanTurn.followedBy, List.append_nil]
            rfl
          | some n =>
            obtain ⟨to_mid, rfl⟩ := follows at_end last n next
            rw [Chan.endTurn_of_next (r := r.fadedOnce.pastPeriod b) (b := b.past) last next, Chan.parts_of_same (r := r) to_mid rfl,
              to_mid]
            simp only [ChanTurn.followedBy, List.append_nil]
            rfl

end

/-! ## Steps 3 and 4 (R156, R159, R161) -/

section
variable {s : State} {c : Stream}

theorem State.lookAhead_of_silent (silent : ¬((s.chan c).state = .running ∨ (s.chan c).state = .starved)) :
    s.lookAhead c = s := by
  rw [← StreamState.playing_iff, Bool.not_eq_true] at silent
  simp [State.lookAhead, Chan.probeDue, silent]

theorem Chan.probeDue_iff {r : Chan} (playing : r.state = .running ∨ r.state = .starved) :
    r.probeDue = true ↔ r.probe = none ∧ r.next = none ∧ ∀ b, r.playing = some b → b.last = false := by
  have playing := (StreamState.playing_iff _).mpr playing
  cases block : r.playing <;> simp [Chan.probeDue, playing, block, and_assoc]

/-- A probe of descriptor `i` given to the port (R156). -/
theorem State.probe_eq_turned {g : Ring} (ring : (s.chan c).ring = some g) (i : Nat) :
    s.probe c i =
      s.chanTurned c
        ⟨{ s.chan c with probe := some i }, [], [],
          [⟨.probe c i (s.chan c).startNumber, g.base + BitVec.ofNat 64 (16 * i), 16, [], true⟩]⟩ := by
  simp [State.probe, ring, State.setChan_eq_turned, State.issue_eq_turned _ c, State.chanTurned_chanTurned,
    ChanTurn.followedBy, readOf, Ring.descriptor]

theorem State.probe_of_no_ring (no_ring : (s.chan c).ring = none) (i : Nat) : s.probe c i = s := by
  simp [State.probe, no_ring]

/-- The look ahead of a channel that plays. -/
theorem State.lookAhead_of_playing (playing : (s.chan c).state = .running ∨ (s.chan c).state = .starved) {t : State}
    (probes : t = if (s.chan c).probeDue then s.probe c (s.chan c).wanted else s) :
    s.lookAhead c = t.chanTurned c ⟨(t.chan c).requested, [], [], (t.chan c).requests c⟩ := by
  have kept : (t.chan c).state = (s.chan c).state := by
    rw [probes]
    split
    · rw [State.probe_chan]
    · rfl
  have playing : (t.chan c).state.playing = true := (StreamState.playing_iff _).mpr (kept ▸ playing)
  rw [← State.topUp_eq_turned, State.lookAhead, ← probes]
  exact if_pos playing

theorem Chan.wanted_eq_following (r : Chan) : r.wanted = if r.playing = none then r.cursor else r.following r.cursor := by
  simp only [Chan.wanted, Option.isNone_iff_eq_none, Chan.after_eq_following]

/-- What a period start does last is the look ahead that the statement gives (R161, steps 3 and 4). -/
theorem State.lookAhead_eq_turned {after : Chan} {reads : List Transfer} (looks : (s.chan c).looksAhead c after reads) :
    s.lookAhead c = s.chanTurned c ⟨after, [], [], reads⟩ := by
  obtain ⟨silent, plays⟩ := looks
  by_cases playing : (s.chan c).state = .running ∨ (s.chan c).state = .starved
  · obtain ⟨probes, no_probe⟩ := plays playing
    rw [State.lookAhead_of_playing playing rfl]
    by_cases due : (s.chan c).probeDue = true
    · obtain ⟨unprobed, no_next, not_last⟩ := (Chan.probeDue_iff playing).mp due
      cases ring : (s.chan c).ring with
      | none =>
        obtain ⟨rfl, rfl⟩ := no_probe (.inl ring)
        rw [if_pos due, State.probe_of_no_ring ring]
      | some g =>
        obtain ⟨rfl, rfl⟩ := probes g _ ring unprobed no_next not_last rfl
        rw [if_pos due, State.probe_eq_turned ring, State.chanTurned_chan, State.chanTurned_chanTurned,
          Chan.wanted_eq_following]
        rfl
    · have none_due : (s.chan c).ring = none ∨ (s.chan c).probe ≠ none ∨ (s.chan c).next ≠ none
          ∨ ∃ b, (s.chan c).playing = some b ∧ b.last = true := by
        rw [Chan.probeDue_iff playing] at due
        grind
      obtain ⟨rfl, rfl⟩ := no_probe none_due
      rw [if_neg due]
  · obtain ⟨not_running, not_starved⟩ := not_or.mp playing
    obtain ⟨rfl, rfl⟩ := silent not_running not_starved
    rw [State.lookAhead_of_silent playing, State.chanTurned_self]

/-! ## A channel's period start (R161) -/

theorem State.channelPeriod_of_paused {k : PriorState} (paused : (s.chan c).state = .paused k) : s.channelPeriod c = s := by
  simp [State.channelPeriod, paused]

theorem State.channelPeriod_of_idle (idle : (s.chan c).state = .stopped ∨ (s.chan c).state = .fault) :
    s.channelPeriod c = (s.fadePeriod c).1 := by
  rcases idle with state | state <;> simp [State.channelPeriod, state]

theorem State.channelPeriod_of_playing (playing : (s.chan c).state = .running ∨ (s.chan c).state = .starved) :
    s.channelPeriod c =
      if (s.fadePeriod c).2 then (s.fadePeriod c).1 else ((s.fadePeriod c).1.blockPeriodStart c).lookAhead c := by
  rcases playing with state | state <;> simp [State.channelPeriod, state]

/-- A stop's fade arrives at a period start of a channel that is not PAUSED. -/
theorem State.channelPeriod_of_stop (not_paused : ∀ k, (s.chan c).state ≠ .paused k) (arrives : (s.chan c).stopArrives) :
    s.channelPeriod c = s.chanTurned c ((s.chan c).fadedOnce.stopTurn c) := by
  have stopped := State.fadePeriod_of_stop arrives
  cases state : (s.chan c).state with
  | paused k => exact absurd state (not_paused k)
  | stopped => rw [State.channelPeriod_of_idle (.inl state), stopped]
  | fault => rw [State.channelPeriod_of_idle (.inr state), stopped]
  | running => rw [State.channelPeriod_of_playing (.inl state), stopped, if_pos rfl]
  | starved => rw [State.channelPeriod_of_playing (.inr state), stopped, if_pos rfl]

variable {mid after : Chan} {out : List (Source × Period)} {writes reads : List Transfer}

/-- A period start is the turn that the statement gives, and then the look ahead. -/
theorem State.channelPeriod_eq_lookAhead (plays : (s.chan c).playsPeriod c mid out writes) :
    s.channelPeriod c = (s.chanTurned c ⟨mid, (s.chan c).parts mid c, out, writes⟩).lookAhead c := by
  by_cases paused : ∃ k, (s.chan c).state = .paused k
  · obtain ⟨to_mid, rfl, rfl⟩ := plays.1 paused
    obtain ⟨k, paused⟩ := paused
    have silent : ¬((s.chan c).state = .running ∨ (s.chan c).state = .starved) := by
      rw [paused]
      simp
    rw [Chan.parts_of_same to_mid rfl, to_mid, State.chanTurned_self, State.channelPeriod_of_paused paused,
      State.lookAhead_of_silent silent]
  · have not_paused := not_exists.mp paused
    by_cases arrives : (s.chan c).stopArrives
    · obtain ⟨moves, there, stops⟩ := arrives
      obtain ⟨stop, -⟩ := plays.2 not_paused _ rfl
      obtain ⟨to_mid, rfl, rfl⟩ := stop moves there stops
      have parts := Chan.parts_of_other (r := s.chan c) (c := c) to_mid nofun
      rw [parts, to_mid, State.lookAhead_of_silent (by rw [State.chanTurned_chan]; simp [Chan.stopped]),
        State.channelPeriod_of_stop not_paused ⟨moves, there, stops⟩]
      rfl
    · by_cases playing : (s.chan c).state = .running ∨ (s.chan c).state = .starved
      · rw [State.channelPeriod_of_playing playing, State.fadePeriod_of_no_stop arrives, if_neg Bool.false_ne_true,
          State.blockPeriodStart_eq_turned, State.chanTurned_chan, State.chanTurned_chanTurned,
          Chan.blockTurn_eq playing arrives plays]
        rfl
      · have idle : (s.chan c).state = .stopped ∨ (s.chan c).state = .fault := by
          cases state : (s.chan c).state <;> simp_all
        obtain ⟨-, goes_on⟩ := plays.2 not_paused _ rfl
        obtain ⟨still, -⟩ := goes_on (Chan.still_of_not_stopArrives arrives)
        obtain ⟨to_mid, rfl, rfl⟩ := still idle
        have parts := Chan.parts_of_same (r := s.chan c) (c := c) to_mid rfl
        rw [parts, to_mid, State.lookAhead_of_silent (by rwa [State.chanTurned_chan]), State.channelPeriod_of_idle idle,
          State.fadePeriod_of_no_stop arrives]
        rfl

theorem State.channelPeriod_eq_turned (plays : (s.chan c).playsPeriod c mid out writes)
    (looks : mid.looksAhead c after reads) :
    s.channelPeriod c = s.chanTurned c ⟨after, (s.chan c).parts mid c, out, writes ++ reads⟩ := by
  have looks : ((s.chanTurned c ⟨mid, (s.chan c).parts mid c, out, writes⟩).chan c).looksAhead c after reads := by
    rwa [State.chanTurned_chan]
  rw [State.channelPeriod_eq_lookAhead plays, State.lookAhead_eq_turned looks, State.chanTurned_chanTurned,
    ChanTurn.followedBy, List.append_nil, List.append_nil]

end

end Sys2Proof.Machine

namespace Sys2Proof.Machine

/-! ## A channel that plays no block requests nothing (R159) -/

section
variable {r : Chan} {c : Stream}

theorem Chan.unrequested_of_silent (silent : r.playing = none) : r.unrequested = [] := by
  rw [Chan.unrequested_eq, Chan.window, silent]
  rfl

theorem Chan.requested_of_silent (silent : r.playing = none) : r.requested = r := by
  rw [Chan.requested, Chan.unrequested_of_silent silent, List.map_nil, List.append_nil]

theorem Chan.requests_of_silent (silent : r.playing = none) : r.requests c = [] := by
  rw [Chan.requests, Chan.unrequested_of_silent silent, List.map_nil]

end

/-! ## FADE_END and BLOCK_END (R47, R158, R163) -/

section
variable {s : State} {c : Stream}

/-- The end of a fade by itself: a fader that stands at its target moves no more, and a stop it carried takes effect. -/
theorem exec_fadeEnd_settles {d : Chan} (moves : (s.chan c).fader.step ≠ 0)
    (there : (s.chan c).fader.current = (s.chan c).fader.target)
    (stilled : d = { s.chan c with fader := { (s.chan c).fader with step := 0 } }) {u : State}
    (made : (if (s.chan c).stopPending && (s.chan c).state.playing then s.chanTurned c (d.stopTurn c)
      else s.chanTurned c ⟨d, [], [], []⟩) = u) :
    ∃ t, exec (.fadeEnd c) s = .next t ∧ u.settles t := by
  have run : exec (.fadeEnd c) s = execFadeEnd c s := rfl
  have due : (s.chan c).fader.arrived = true := by simp [Fader.arrived, moves, there]
  have set : s.setChan c { s.chan c with fader := (s.chan c).fader.still } = s.chanTurned c ⟨d, [], [], []⟩ := by
    rw [State.setChan_eq_turned, runningPost_self, stilled]
    rfl
  rw [run, execFadeEnd]
  refine event_settles due ?_
  simp only [set, State.stopChannel_eq_turned, State.chanTurned_chan, State.chanTurned_chanTurned]
  exact made

/-- The end of a block by itself: a channel that still plays then requests what its window lacks. -/
theorem exec_blockEnd_settles {b : Playing} (running : (s.chan c).state = .running) (plays : (s.chan c).playing = some b)
    (ended : b.len ≤ b.period) {w : ChanTurn} (turn : (s.chan c).endTurn c b = w) {u : State}
    (made : (if w.after.state.playing then s.chanTurned c (w.followedBy ⟨w.after.requested, [], [], w.after.requests c⟩)
      else s.chanTurned c w) = u) :
    ∃ t, exec (.blockEnd c) s = .next t ∧ u.settles t := by
  have run : exec (.blockEnd c) s = execBlockEnd c s := rfl
  simp only [run, execBlockEnd, running, plays]
  refine event_settles (decide_eq_true ended) ?_
  simp only [State.blockEnded_eq_turned, turn, State.topUp_eq_turned, State.chanTurned_chan, State.chanTurned_chanTurned]
  exact made

end

/-! ## The cues of a period start (R172, R173) -/

/-- A cue that fires leaves the table, and the pointer after it. -/
theorem State.fireCue_table {s : State} {i : Nat} {c : Cue} (ripe : s.su.theShow.ripe i c) :
    s.fireCue.su.theShow.cues = s.su.theShow.cues ∧ ∀ j, s.fireCue.su.theShow.pointer = some j → j = i + 1 := by
  obtain ⟨running, pointer, cue, -⟩ := ripe
  rw [State.fireCue_eq rfl running pointer cue rfl]
  refine ⟨rfl, fun j next => ?_⟩
  simp only [Option.ite_none_right_eq_some, Option.some.injEq] at next
  exact next.2.symm

section
variable {v : Nat → State} {n : Nat} (fires : ∀ k < n, v (k + 1) = (v k).fireCue ∧ ∃ i c, (v k).su.theShow.ripe i c)
include fires

/-- The cues that fire one after another stand at rising places of one table. -/
theorem place_of_fires {k : Nat} (first : k < n) {i : Nat} {c : Cue} (ripe : (v k).su.theShow.ripe i c) :
    k ≤ i ∧ (v k).su.theShow.cues = (v 0).su.theShow.cues := by
  induction k generalizing i c with
  | zero => exact ⟨i.zero_le, rfl⟩
  | succ k ih =>
    have before := Nat.lt_of_succ_lt first
    obtain ⟨fired, j, d, ripe_before⟩ := fires k before
    obtain ⟨le, table⟩ := ih before ripe_before
    obtain ⟨kept, next⟩ := State.fireCue_table ripe_before
    obtain ⟨-, pointer, -, -⟩ := ripe
    rw [fired] at pointer ⊢
    exact ⟨next i pointer ▸ Nat.succ_le_succ le, kept.trans table⟩

/-- No more cues fire than the table holds. -/
theorem fires_le_length : n ≤ (v 0).su.theShow.cues.length := by
  cases n with
  | zero => exact Nat.zero_le _
  | succ n =>
    obtain ⟨-, i, c, ripe⟩ := fires n n.lt_succ_self
    obtain ⟨le, table⟩ := place_of_fires fires n.lt_succ_self ripe
    obtain ⟨-, -, cue, -⟩ := ripe
    have within := (List.getElem?_eq_some_iff.mp cue).1
    rw [table] at within
    exact le.trans_lt within

end

/-- Cues fire for as long as the next one is due. -/
theorem fireDue_eq {v : Nat → State} {n m : Nat}
    (fires : ∀ k < n, v (k + 1) = (v k).fireCue ∧ ∃ i c, (v k).su.theShow.ripe i c)
    (rests : ∀ i c, ¬(v n).su.theShow.ripe i c) (enough : n ≤ m) : fireDue m (v 0) = v n := by
  induction n generalizing v m with
  | zero =>
    have none_due : ¬(v 0).su.theShow.due = true := by
      rw [Show.due_iff]
      rintro ⟨i, c, ripe⟩
      exact rests i c ripe
    cases m with
    | zero => rfl
    | succ m => exact if_neg none_due
  | succ n ih =>
    obtain ⟨m, rfl⟩ := Nat.exists_eq_succ_of_ne_zero (Nat.ne_zero_of_lt enough)
    obtain ⟨fired, ripe⟩ := fires 0 n.succ_pos
    rw [fireDue, if_pos ((Show.due_iff _).mpr ripe), ← fired]
    exact ih (v := fun k => v (k + 1)) (fun k hk => fires (k + 1) (Nat.succ_lt_succ hk)) rests (Nat.le_of_succ_le_succ enough)

/-- A show's period start, cue by cue: the clock rises, the cues that come due fire, and the firing is over (R172). -/
theorem State.showPeriod_of_running {s : State} (running : s.su.theShow.state = .running) {v : Nat → State} {n : Nat}
    (begins : v 0 = s.modShow fun w => { w with clock := min 4294967295 (w.clock + 1), firing := true })
    (fires : ∀ k < n, v (k + 1) = (v k).fireCue ∧ ∃ i c, (v k).su.theShow.ripe i c)
    (rests : ∀ i c, ¬(v n).su.theShow.ripe i c) :
    s.showPeriod = (v n).modShow fun w => { w with firing := false } := by
  rw [← fireDue_eq fires rests (fires_le_length fires), begins]
  exact if_pos running

/-! ## SU_PERIOD_START (R161, R172) -/

theorem exec_suPeriodStart_settles {s u v : State} (channels : (List.finRange 16).foldl State.channelPeriod s = u)
    (made : u.showPeriod = v) : ∃ t, exec .suPeriodStart s = .next t ∧ v.settles t := by
  have run : exec .suPeriodStart s = execSuPeriodStart s := rfl
  rw [run, execSuPeriodStart, channels, made]
  exact settle_settles s v

/-- Every channel's part of a period start. -/
theorem foldl_channelPeriod {s : State} {mid after : Stream → Chan} {out : Stream → List (Source × Period)}
    {writes reads : Stream → List Transfer} (plays : ∀ c, (s.chan c).playsPeriod c (mid c) (out c) (writes c))
    (looks : ∀ c, (mid c).looksAhead c (after c) (reads c)) :
    (List.finRange 16).foldl State.channelPeriod s =
      s.channelsTurned fun c => ⟨after c, (s.chan c).parts (mid c) c, out c, writes c ++ reads c⟩ := by
  refine foldl_channels _ _ _ fun t c as_was => ?_
  rw [← as_was]
  exact State.channelPeriod_eq_turned (by rw [as_was]; exact plays c) (looks c)

/-- Settles O52: every channel takes the turn of R161, and the cues fire as `fireDue` has them. -/
theorem suPeriodStartPlaysEveryChannel : Obligations.SuPeriodStartPlaysEveryChannel := by
  rintro s _ _ rfl rfl
  refine ⟨?period, ?fade, ?block⟩
  case period =>
    intro mid after out writes reads due v n plays looks hdue begins fires rests
    have hdue (x : Show) (i : Nat) (c : Cue) : due x i c ↔ x.ripe i c := hdue x i c
    let u := s.channelsTurned fun c => ⟨after c, (s.chan c).parts (mid c) c, out c, writes c ++ reads c⟩
    have channels : (List.finRange 16).foldl State.channelPeriod s = u := foldl_channelPeriod plays looks
    have fires : ∀ k < n, v (k + 1) = (v k).fireCue ∧ ∃ i c, (v k).su.theShow.ripe i c := by
      intro k hk
      obtain ⟨_, i, c, _, rfl, comes, rfl, next⟩ := fires k hk
      have ripe := (hdue _ i c).mp comes
      have ⟨running, pointer, cue, _⟩ := ripe
      exact ⟨next.trans (State.fireCue_eq rfl running pointer cue rfl).symm, i, c, ripe⟩
    have rests (i : Nat) (c : Cue) : ¬(v n).su.theShow.ripe i c := mt (hdue _ i c).mpr (rests i c)
    by_cases running : s.su.theShow.state = .running
    · rw [if_pos running] at begins ⊢
      exact exec_suPeriodStart_settles channels (State.showPeriod_of_running (s := u) running begins fires rests)
    · have no_fires : n = 0 := by
        by_contra some_fire
        obtain ⟨-, i, c, still, -⟩ := fires 0 (Nat.pos_of_ne_zero some_fire)
        rw [begins, if_neg running] at still
        exact running still
      subst no_fires
      rw [begins, if_neg running, if_neg running]
      have stands : u.showPeriod = u := if_neg running
      exact exec_suPeriodStart_settles channels stands
  case fade =>
    rintro c _ d rfl moves there stilled
    refine ⟨fun goes_on => ?_, fun stops playing => ?_⟩
    · have goes_on : (s.chan c).stopPending = false := goes_on
      refine exec_fadeEnd_settles moves there stilled ?_
      rw [goes_on, Bool.false_and, if_neg Bool.false_ne_true]
      exact State.chanTurned_record s c d
    · have stopped : d.stopTurn c = ⟨d.stopped, (s.chan c).leaves c, [], (s.chan c).consumes c⟩ := by
        rw [stilled]
        rfl
      have stops : ((s.chan c).stopPending && (s.chan c).state.playing) = true :=
        Bool.and_eq_true_iff.mpr ⟨stops, (StreamState.playing_iff _).mpr playing⟩
      refine exec_fadeEnd_settles moves there stilled ?_
      rw [if_pos stops, stopped, State.chanTurned, List.append_nil]
      rfl
  case block =>
    rintro c _ b rfl running plays ended
    have leaves : (s.chan c).leaves c = [.streamRunning c false] := if_pos running
    refine ⟨fun last => ?_, fun not_last no_next => ?_, fun not_last n e next follows => ?_⟩
    · refine exec_blockEnd_settles running plays ended (Chan.endTurn_of_last last) ?_
      rw [leaves]
      refine (if_neg Bool.false_ne_true).trans ?_
      rw [State.chanTurned, List.append_nil]
      rfl
    · refine exec_blockEnd_settles running plays ended (Chan.endTurn_of_none not_last no_next) ?_
      rw [leaves]
      refine (if_pos rfl).trans ?_
      rw [ChanTurn.followedBy, Chan.requested_of_silent rfl, Chan.requests_of_silent rfl, State.chanTurned]
      simp only [List.append_nil]
      rfl
    · subst follows
      refine exec_blockEnd_settles running plays ended (Chan.endTurn_of_next not_last next) ?_
      refine (if_pos ((StreamState.playing_iff _).mpr (.inl running))).trans ?_
      rw [ChanTurn.followedBy, State.chanTurned]
      simp only [List.append_nil]
      rfl

end Sys2Proof.Machine
